-- ==== Sys2Proof/Word.lean ====
section
/-!
DEFINITION. The two word types of the block: bytes and 16-bit values (spec/00_scope.md R6, R7: everything is
unsigned, bit 0 is the least significant bit).
-/
namespace Sys2Proof

/-- A byte: 8 bits, bit 7 the most significant (R6, R7). -/
abbrev Byte := BitVec 8

/-- A 16-bit unsigned value (R5: the width of SEQ, ACK, DLEN and CSUM). -/
abbrev Half := BitVec 16

end Sys2Proof
end

