-- ==== Sys2Proof/Syntax.lean ====
section
/-!
DEFINITION. The operations of the block (spec/30_encoding.md R55, one constructor per row of spec/opcode_table.json),
their operand formats (R54), the types of their results (R58) and the request on the ports that carries one (R53).
-/
namespace Sys2Proof

/-- The six operand formats of R54. -/
inductive Format where
  /-- No operand. -/
  | n
  /-- One 16-bit operand. -/
  | u16
  /-- One 8-bit operand. -/
  | u8
  /-- Three bits: `afs`. -/
  | b3
  /-- One byte sequence. -/
  | bytes
  /-- The operands of CONSTRUCT. -/
  | cons
  deriving DecidableEq, Repr

/-- The result types of the column `result` of R55 (R58). -/
inductive ResultKind where
  | none
  | bit
  | byte
  | half
  | bytes
  | label
  deriving DecidableEq, Repr

/-- The operations, in the order of the table of R55. The five optional operands of CONSTRUCT are options, as R54 says
of a model. -/
inductive Instr where
  /-- CONSTRUCT, R80. -/
  | construct (seq ack : Half) (flags window : Option Byte) (dlen : Option Half) (pay : Option (List Byte))
      (csum : Option Half)
  /-- DECODE, R82. -/
  | decodeWire (raw : List Byte)
  /-- ENCODE, R81. -/
  | encodeWire
  /-- CSUM.COMPUTE, R90. -/
  | csumCompute
  /-- CSUM.UPDATE, R91. -/
  | csumUpdate
  /-- CSUM.VERIFY, R92. -/
  | csumVerify
  /-- FLAGS.SET, R95. -/
  | flagsSet (ack syn fin : Bool)
  /-- CLASSIFY, R100. -/
  | classify
  /-- SEQ.ADV, R106. -/
  | seqAdv (amount : Half)
  /-- ACK.ADV, R107. -/
  | ackAdv (amount : Half)
  /-- RD.SEQ, R111. -/
  | rdSeq
  /-- RD.ACK, R112. -/
  | rdAck
  /-- RD.FLAGS, R113. -/
  | rdFlags
  /-- RD.WIN, R114. -/
  | rdWin
  /-- RD.DLEN, R115. -/
  | rdDlen
  /-- RD.CSUM, R116. -/
  | rdCsum
  /-- RD.PAY, R117. -/
  | rdPay
  /-- WR.SEQ, R118. -/
  | wrSeq (v : Half)
  /-- WR.ACK, R119. -/
  | wrAck (v : Half)
  /-- WR.FLAGS, R120. -/
  | wrFlags (v : Byte)
  /-- WR.WIN, R121. -/
  | wrWin (v : Byte)
  /-- WR.DLEN, R122. -/
  | wrDlen (v : Half)
  /-- WR.CSUM, R123. -/
  | wrCsum (v : Half)
  /-- WR.PAY, R124. -/
  | wrPay (pay : List Byte)
  /-- PAY.CLEAR, R131. -/
  | payClear
  /-- SET.SEQ, R126. -/
  | setSeq (v : Half)
  /-- SET.ACK, R127. -/
  | setAck (v : Half)
  /-- SET.FLAGS, R128. -/
  | setFlags (v : Byte)
  /-- SET.WIN, R129. -/
  | setWin (v : Byte)
  /-- SET.PAY, R130. -/
  | setPay (pay : List Byte)
  deriving DecidableEq, Repr

/-- What the host puts on the ports for one operation (R53): the operation code `OP` and one port per operand of
R54. A byte sequence comes with its length (`n = len(data)`). -/
structure Request where
  /-- `OP`, the operation code. -/
  op : Byte
  /-- Format U16: `v` (`by` of the two advances). -/
  v16 : Half
  /-- Format U8: `v`. -/
  v8 : Byte
  /-- Format B3: `afs[2]` = ack, `afs[1]` = syn, `afs[0]` = fin. -/
  afs : BitVec 3
  /-- Format BYTES: `data`. -/
  data : List Byte
  /-- Format CONS: `seq`. -/
  seq : Half
  /-- Format CONS: `ack`. -/
  ack : Half
  /-- Format CONS: `present[0]` flags, `[1]` window, `[2]` dlen, `[3]` pay, `[4]` csum. -/
  present : BitVec 5
  /-- Format CONS: `flags`. -/
  flags : Byte
  /-- Format CONS: `window`. -/
  window : Byte
  /-- Format CONS: `dlen`. -/
  dlen : Half
  /-- Format CONS: `csum`. -/
  csum : Half
  /-- Format CONS: `pay`. -/
  pay : List Byte
  deriving DecidableEq, Repr

/-- What the host does next: present an operation (R53) or assert the reset input (spec/70_reset_and_hazards.md R160:
reset is not an operation and has no code). -/
inductive HostEvent where
  | present (r : Request)
  | reset
  deriving DecidableEq, Repr

end Sys2Proof
end

