-- ==== Sys2Proof/WellFormed.lean ====
section
/-!
DEFINITION. Which operations have every operand in the range spec/30_encoding.md R54 gives it. Numeric operands cannot be
out of range, their types have the ports' widths; the one check is the length of a byte sequence of format BYTES. The
payload of CONSTRUCT (format CONS) has no range in R54. Nothing in the machine depends on this check: a longer sequence is
answered as every sequence too large is (R145).
-/
namespace Sys2Proof

/-- The longest byte sequence of format BYTES: its length `n` is in 0 .. 65535 (R54). -/
def byteSeqMax : Nat := 65535

/-- A byte sequence in the range of format BYTES. -/
def fitsPort (l : List Byte) : Bool := decide (l.length ≤ byteSeqMax)

/-- Every operand is in the range R54 gives it. -/
def Instr.wellFormed : Instr → Bool
  | .construct _ _ _ _ _ _ _ => true
  | .decodeWire raw => fitsPort raw
  | .encodeWire => true
  | .csumCompute => true
  | .csumUpdate => true
  | .csumVerify => true
  | .flagsSet _ _ _ => true
  | .classify => true
  | .seqAdv _ => true
  | .ackAdv _ => true
  | .rdSeq => true
  | .rdAck => true
  | .rdFlags => true
  | .rdWin => true
  | .rdDlen => true
  | .rdCsum => true
  | .rdPay => true
  | .wrSeq _ => true
  | .wrAck _ => true
  | .wrFlags _ => true
  | .wrWin _ => true
  | .wrDlen _ => true
  | .wrCsum _ => true
  | .wrPay p => fitsPort p
  | .payClear => true
  | .setSeq _ => true
  | .setAck _ => true
  | .setFlags _ => true
  | .setWin _ => true
  | .setPay p => fitsPort p

end Sys2Proof
end

