-- ==== Sys2Proof/Decode.lean ====
section
/-!
DEFINITION. From a request on the ports to an operation and back: the operation code map of spec/30_encoding.md R55,
the operand formats of R54, the unassigned codes of R56 and the ignored ports of R57.
-/
namespace Sys2Proof

/-- One row of the table of R55. -/
structure OpRow where
  code : Byte
  mnemonic : String
  format : Format
  result : ResultKind
  deriving DecidableEq, Repr

/-- The table of R55: code, mnemonic, operand format and result of the thirty operations. -/
def opTable : List OpRow := [
  ⟨0x01, "CONSTRUCT", .cons, .none⟩, ⟨0x02, "DECODE", .bytes, .label⟩, ⟨0x03, "ENCODE", .n, .bytes⟩,
  ⟨0x10, "CSUM.COMPUTE", .n, .half⟩, ⟨0x11, "CSUM.UPDATE", .n, .none⟩, ⟨0x12, "CSUM.VERIFY", .n, .bit⟩,
  ⟨0x20, "FLAGS.SET", .b3, .none⟩, ⟨0x21, "CLASSIFY", .n, .label⟩,
  ⟨0x30, "SEQ.ADV", .u16, .none⟩, ⟨0x31, "ACK.ADV", .u16, .none⟩,
  ⟨0x40, "RD.SEQ", .n, .half⟩, ⟨0x41, "RD.ACK", .n, .half⟩, ⟨0x42, "RD.FLAGS", .n, .byte⟩,
  ⟨0x43, "RD.WIN", .n, .byte⟩, ⟨0x44, "RD.DLEN", .n, .half⟩, ⟨0x45, "RD.CSUM", .n, .half⟩,
  ⟨0x46, "RD.PAY", .n, .bytes⟩,
  ⟨0x50, "WR.SEQ", .u16, .none⟩, ⟨0x51, "WR.ACK", .u16, .none⟩, ⟨0x52, "WR.FLAGS", .u8, .none⟩,
  ⟨0x53, "WR.WIN", .u8, .none⟩, ⟨0x54, "WR.DLEN", .u16, .none⟩, ⟨0x55, "WR.CSUM", .u16, .none⟩,
  ⟨0x56, "WR.PAY", .bytes, .none⟩, ⟨0x58, "PAY.CLEAR", .n, .none⟩,
  ⟨0x60, "SET.SEQ", .u16, .none⟩, ⟨0x61, "SET.ACK", .u16, .none⟩, ⟨0x62, "SET.FLAGS", .u8, .none⟩,
  ⟨0x63, "SET.WIN", .u8, .none⟩, ⟨0x66, "SET.PAY", .bytes, .none⟩]

/-- The row of a code; none for an unassigned code (R56). -/
def opRow (op : Byte) : Option OpRow := opTable.find? (fun r => r.code == op)

/-- What the decoder makes of a request: an operation or an unassigned code (R56). A byte sequence of any length is taken
as presented: one that is too large is the operation's to answer (R54, spec/60_exceptions.md R145; log 6). -/
inductive Decoded where
  | instr (i : Instr)
  | badOp
  deriving DecidableEq, Repr

/-- An operand that the present mask says is given (R54: a 0 bit means omitted, and the port value is ignored). -/
def givenIf {α : Type} (given : Bool) (v : α) : Option α := if given then some v else none

/-- CONSTRUCT from the CONS ports (R54). -/
def decodeConstruct (r : Request) : Instr :=
  .construct r.seq r.ack (givenIf (r.present.getLsbD 0) r.flags) (givenIf (r.present.getLsbD 1) r.window)
    (givenIf (r.present.getLsbD 2) r.dlen) (givenIf (r.present.getLsbD 3) r.pay) (givenIf (r.present.getLsbD 4) r.csum)

/-- The decoder: R55 for the assigned codes, R56 for the rest. Only the ports of the operation's format are read
(R57). -/
def decode (r : Request) : Decoded :=
  match r.op with
  | 0x01#8 => .instr (decodeConstruct r)
  | 0x02#8 => .instr (.decodeWire r.data)
  | 0x03#8 => .instr .encodeWire
  | 0x10#8 => .instr .csumCompute
  | 0x11#8 => .instr .csumUpdate
  | 0x12#8 => .instr .csumVerify
  | 0x20#8 => .instr (.flagsSet (r.afs.getLsbD 2) (r.afs.getLsbD 1) (r.afs.getLsbD 0))
  | 0x21#8 => .instr .classify
  | 0x30#8 => .instr (.seqAdv r.v16)
  | 0x31#8 => .instr (.ackAdv r.v16)
  | 0x40#8 => .instr .rdSeq
  | 0x41#8 => .instr .rdAck
  | 0x42#8 => .instr .rdFlags
  | 0x43#8 => .instr .rdWin
  | 0x44#8 => .instr .rdDlen
  | 0x45#8 => .instr .rdCsum
  | 0x46#8 => .instr .rdPay
  | 0x50#8 => .instr (.wrSeq r.v16)
  | 0x51#8 => .instr (.wrAck r.v16)
  | 0x52#8 => .instr (.wrFlags r.v8)
  | 0x53#8 => .instr (.wrWin r.v8)
  | 0x54#8 => .instr (.wrDlen r.v16)
  | 0x55#8 => .instr (.wrCsum r.v16)
  | 0x56#8 => .instr (.wrPay r.data)
  | 0x58#8 => .instr .payClear
  | 0x60#8 => .instr (.setSeq r.v16)
  | 0x61#8 => .instr (.setAck r.v16)
  | 0x62#8 => .instr (.setFlags r.v8)
  | 0x63#8 => .instr (.setWin r.v8)
  | 0x66#8 => .instr (.setPay r.data)
  | _ => .badOp

/-- The operation code of an operation (the column `OP` of R55). -/
def Instr.opcode : Instr → Byte
  | .construct _ _ _ _ _ _ _ => 0x01
  | .decodeWire _ => 0x02
  | .encodeWire => 0x03
  | .csumCompute => 0x10
  | .csumUpdate => 0x11
  | .csumVerify => 0x12
  | .flagsSet _ _ _ => 0x20
  | .classify => 0x21
  | .seqAdv _ => 0x30
  | .ackAdv _ => 0x31
  | .rdSeq => 0x40
  | .rdAck => 0x41
  | .rdFlags => 0x42
  | .rdWin => 0x43
  | .rdDlen => 0x44
  | .rdCsum => 0x45
  | .rdPay => 0x46
  | .wrSeq _ => 0x50
  | .wrAck _ => 0x51
  | .wrFlags _ => 0x52
  | .wrWin _ => 0x53
  | .wrDlen _ => 0x54
  | .wrCsum _ => 0x55
  | .wrPay _ => 0x56
  | .payClear => 0x58
  | .setSeq _ => 0x60
  | .setAck _ => 0x61
  | .setFlags _ => 0x62
  | .setWin _ => 0x63
  | .setPay _ => 0x66

/-- A request with the given code and zero on every operand port. -/
def Request.blank (op : Byte) : Request :=
  { op := op, v16 := 0, v8 := 0, afs := 0, data := [], seq := 0, ack := 0, present := 0, flags := 0, window := 0,
    dlen := 0, csum := 0, pay := [] }

/-- The present mask of R54. -/
def presentMask (flags window dlen pay csum : Bool) : BitVec 5 :=
  (if flags then 1 else 0) ||| (if window then 2 else 0) ||| (if dlen then 4 else 0) ||| (if pay then 8 else 0) |||
    (if csum then 16 else 0)

/-- The 3-bit value `afs` of R54. -/
def afsOf (ack syn fin : Bool) : BitVec 3 :=
  (if ack then 4 else 0) ||| (if syn then 2 else 0) ||| (if fin then 1 else 0)

/-- The encoder: the request that presents an operation, with zero on every port the operation does not use. -/
def encode (i : Instr) : Request :=
  let b := Request.blank i.opcode
  match i with
  | .construct seq ack flags window dlen pay csum =>
    { b with
      seq := seq, ack := ack,
      present := presentMask flags.isSome window.isSome dlen.isSome pay.isSome csum.isSome,
      flags := flags.getD 0, window := window.getD 0, dlen := dlen.getD 0, csum := csum.getD 0, pay := pay.getD [] }
  | .decodeWire raw => { b with data := raw }
  | .encodeWire => b
  | .csumCompute => b
  | .csumUpdate => b
  | .csumVerify => b
  | .flagsSet ack syn fin => { b with afs := afsOf ack syn fin }
  | .classify => b
  | .seqAdv amount => { b with v16 := amount }
  | .ackAdv amount => { b with v16 := amount }
  | .rdSeq => b
  | .rdAck => b
  | .rdFlags => b
  | .rdWin => b
  | .rdDlen => b
  | .rdCsum => b
  | .rdPay => b
  | .wrSeq v => { b with v16 := v }
  | .wrAck v => { b with v16 := v }
  | .wrFlags v => { b with v8 := v }
  | .wrWin v => { b with v8 := v }
  | .wrDlen v => { b with v16 := v }
  | .wrCsum v => { b with v16 := v }
  | .wrPay p => { b with data := p }
  | .payClear => b
  | .setSeq v => { b with v16 := v }
  | .setAck v => { b with v16 := v }
  | .setFlags v => { b with v8 := v }
  | .setWin v => { b with v8 := v }
  | .setPay p => { b with data := p }

/-- Two requests carry the same code and the same values on every port that code uses (R54, R57). For format CONS the
value of an operand counts only where its present bit is 1. An unassigned code uses no port (R56: "whatever is on the
operand ports"). -/
def Request.sameUsedPorts (r q : Request) : Prop :=
  r.op = q.op ∧
    match (opRow r.op).map OpRow.format with
    | none => True
    | some .n => True
    | some .u16 => r.v16 = q.v16
    | some .u8 => r.v8 = q.v8
    | some .b3 => r.afs = q.afs
    | some .bytes => r.data = q.data
    | some .cons =>
      r.seq = q.seq ∧ r.ack = q.ack ∧ r.present = q.present ∧
        (r.present.getLsbD 0 = true → r.flags = q.flags) ∧ (r.present.getLsbD 1 = true → r.window = q.window) ∧
        (r.present.getLsbD 2 = true → r.dlen = q.dlen) ∧ (r.present.getLsbD 3 = true → r.pay = q.pay) ∧
        (r.present.getLsbD 4 = true → r.csum = q.csum)

/-- The request of a word of the opcode table: the table gives bits to `OP` alone (bits 7..0), and the operand ports,
which it gives none, are zero (log 8). Bits of `w` from `nbits` on do not exist. -/
def Request.ofWord (nbits w : Nat) : Request := Request.blank (BitVec.ofNat 8 (w % 2 ^ nbits))

/-- The operation the decoder reads from a word of the opcode table. -/
def decodeTableWord (nbits w : Nat) : Option Instr :=
  match decode (Request.ofWord nbits w) with
  | .instr i => some i
  | .badOp => none

end Sys2Proof
end

