-- ==== Sys2Proof/Machine/State.lean ====
section
/-!
DEFINITION. The state of the block (spec/10_state.md R10 to R25), its responses (spec/30_encoding.md R58 to R60) and the
reasons a step can stop (there are none). Everything is plain data.
-/
namespace Sys2Proof.Machine

/-- The seven attributes of the packet (R10, R11 to R16, R18). `PLEN` is the length of `pay`: R18 has a model hold a
byte sequence of length PLEN and nothing more. -/
structure Packet where
  /-- `SEQ`, R11. -/
  seq : Half
  /-- `ACK`, R12. -/
  ack : Half
  /-- `FLAGS`, R13. -/
  flags : Byte
  /-- `WINDOW`, R14. -/
  window : Byte
  /-- `DLEN`, R15: the declared length, independent of the payload's. -/
  dlen : Half
  /-- `CSUM`, R16: the stored checksum, stale or not. -/
  csum : Half
  /-- `PAY`, R18. -/
  pay : List Byte
  deriving DecidableEq, Repr

/-- The statuses of R59. -/
inductive Status where
  /-- The operation was performed. -/
  | ok
  /-- DECODE was given fewer than 10 bytes (spec/60_exceptions.md R144). -/
  | truncatedHeader
  /-- A payload longer than 1008 bytes, an image longer than 1018 (R145). -/
  | oversize
  /-- The operation needs a packet and `VALID = 0` (R146). -/
  | noPacket
  /-- Unassigned operation code (R147). -/
  | badOp
  deriving DecidableEq, Repr

/-- The type labels of R60. -/
inductive TypeLabel where
  | unclassified
  | syn
  | ack
  | fin
  | synAck
  | finAck
  | data
  deriving DecidableEq, Repr

/-- What a response carries beside its status (R58, the column `result` of R55). -/
inductive Result where
  | none
  | bit (v : Bool)
  | byte (v : Byte)
  | half (v : Half)
  | bytes (v : List Byte)
  | label (v : TypeLabel)
  deriving DecidableEq, Repr

/-- The response to an operation: the pair (status, result) of R58. -/
structure Response where
  status : Status
  result : Result
  deriving DecidableEq, Repr

/-- The state of the machine: the packet slot of R10, and two fields of the MODEL's own for the operation interface
(R53, R58), which the spec places outside the block's state. -/
structure State where
  /-- The seven packet elements of the slot (R10). -/
  pkt : Packet
  /-- `VALID`, R19. -/
  valid : Bool
  /-- The MODEL's own: what the host does next, in order (R17, R40; log 2). -/
  pending : List HostEvent
  /-- The MODEL's own: the response to the last operation, none before the first (R58; log 4). -/
  resp : Option Response
  deriving DecidableEq, Repr

/-- Why the machine can stop with a fault: for no reason. Every operation responds, and an error is a response
(spec/60_exceptions.md R140, R150), so there is no constructor. -/
inductive Fault where
  deriving DecidableEq, Repr

/-- Why the model can give no meaning. -/
inductive Refusal where
  /-- Raised by an arm of `exec` for an instruction without a meaning; every instruction of this model has one, so
  nothing raises it. Safe. -/
  | notModelled (mnemonic : String)
  deriving DecidableEq, Repr

/-- The outcome of a step of this machine. -/
abbrev Out := Host.Outcome State Fault Refusal

/-- What the seven packet elements hold after reset: the spec leaves them unspecified and unobservable (R25, R160).
DESIGN CHOICE: all zero, empty payload (log 1). -/
def Packet.atReset : Packet :=
  { seq := 0, ack := 0, flags := 0, window := 0, dlen := 0, csum := 0, pay := [] }

/-- The machine right after reset: `VALID = 0` (R25, R160). The other elements are unspecified there (log 1); nothing is
presented and nothing has been answered (DESIGN CHOICE, log 2 and log 4). -/
def State.reset : State :=
  { pkt := Packet.atReset, valid := false, pending := [], resp := none }

end Sys2Proof.Machine
end

