-- ==== Sys2Proof/Machine/Flags.lean ====
section
/-!
DEFINITION. The flag-bit encoder and decoder as pure functions (spec/43_flags.md R95, R99; spec/30_encoding.md R50;
spec/10_state.md R13). The block has no condition codes (spec/10_state.md R20): FLAGS is packet data.
-/
namespace Sys2Proof.Machine

/-- `FLAG_FIN`, R50. -/
def flagFin : Byte := 0x01

/-- `FLAG_SYN`, R50. -/
def flagSyn : Byte := 0x02

/-- `FLAG_ACK`, R50. -/
def flagAck : Byte := 0x10

/-- `FLAG_RESERVED`: bits 7, 6, 5, 3, 2 (R13). -/
def flagReserved : Byte := 0xEC

/-- `set_flag_bits`, R95: the reserved bits of the old value, the three defined bits from the Booleans. -/
def setFlagBits (old : Byte) (ack syn fin : Bool) : Byte :=
  (old &&& flagReserved) ||| (if ack then flagAck else 0) ||| (if syn then flagSyn else 0) |||
    (if fin then flagFin else 0)

/-- `classify`, R99: exact matches on the whole byte first, then the actual payload length. -/
def classify (flags : Byte) (plen : Nat) : TypeLabel :=
  if flags = flagSyn then .syn
  else if flags = flagAck then .ack
  else if flags = flagFin then .fin
  else if flags = flagSyn ||| flagAck then .synAck
  else if flags = flagFin ||| flagAck then .finAck
  else if plen > 0 then .data
  else .unclassified

end Sys2Proof.Machine
end

