-- ==== Sys2Proof/Config.lean ====
section
/-!
DEFINITION. The parameters of the block (spec/00_scope.md R5; spec/92_eei_decisions.md, "Parameters a model should
carry"). The type stands here; the values of this hardware are `Machine.params`. The widths of R5 (field widths,
BY_WIDTH, OP_WIDTH) are the widths of the types, and N_SLOTS = 1 is the shape of the state.
-/
namespace Sys2Proof

/-- What R5 asks a model to keep as configuration. -/
structure Config where
  /-- `HEADER_LEN`: bytes of the header. -/
  headerLen : Nat
  /-- `PAYLOAD_MAX`: most bytes of a payload. -/
  payloadMax : Nat
  /-- `SEQ_MODULUS`: the modulus of the advance. -/
  seqModulus : Nat
  /-- `DEFAULT_FLAGS`: flags of a CONSTRUCT that omits them. -/
  defaultFlags : Byte
  /-- `DEFAULT_WINDOW`: window of a CONSTRUCT that omits it. -/
  defaultWindow : Byte
  /-- `DEFAULT_DLEN`: declared length of a CONSTRUCT that omits it. -/
  defaultDlen : Half
  /-- The default payload of a CONSTRUCT that omits it. -/
  defaultPay : List Byte
  /-- The checksum generator (spec/92_eei_decisions.md D10: a field, because its polynomial is not in the source). -/
  crc16 : List Byte → Half

/-- `PACKET_MAX = HEADER_LEN + PAYLOAD_MAX` (R5). -/
def Config.packetMax (c : Config) : Nat := c.headerLen + c.payloadMax

end Sys2Proof
end

