-- ==== Sys2Proof/Machine/Crc.lean ====
section
/-!
DEFINITION. The CRC-16/CCITT checksum generator (spec/40_crc16.md R65 to R71): the bytewise form of R66, which the
machine uses, and the equivalent forms of R67 (bit-serial) and R69 (table-driven).
-/
namespace Sys2Proof.Machine

/-- `CRC_INIT`: "seeded at 0" (R65, R66). -/
def crcInit : Half := 0x0000

/-- `CRC_POLY`. PRESUMED: from general knowledge in the spec itself (R66, spec/92_eei_decisions.md D10; log 5). -/
def crcPoly : Half := 0x1021

/-- One pass of the inner loop of R66. -/
def crcBit (c : Half) : Half := if c.getLsbD 15 then (c <<< 1) ^^^ crcPoly else c <<< 1

/-- `n` passes of the inner loop of R66. -/
def crcBits : Nat → Half → Half
  | 0, c => c
  | n + 1, c => crcBits n (crcBit c)

/-- One pass of the outer loop of R66: the byte enters the high half, then eight bit steps. -/
def crcByte (c : Half) (b : Byte) : Half := crcBits 8 (c ^^^ (b.zeroExtend 16 <<< 8))

/-- `crc16_from(c, s)`: the running form (R70). -/
def crc16From (c : Half) : List Byte → Half
  | [] => c
  | b :: s => crc16From (crcByte c b) s

/-- `crc16(s)`, R66: total on byte sequences of any length (R79). -/
def crc16 (s : List Byte) : Half := crc16From crcInit s

/-- One bit time of the shift register of R67: `fb = crc[15] xor d`. -/
def crcSerialBit (c : Half) (d : Bool) : Half :=
  if c.getLsbD 15 ^^ d then (c <<< 1) ^^^ crcPoly else c <<< 1

/-- The bits of a byte in the order of R67 and R68: bit 7 first. -/
def bitsOfByte (b : Byte) : List Bool :=
  [b.getLsbD 7, b.getLsbD 6, b.getLsbD 5, b.getLsbD 4, b.getLsbD 3, b.getLsbD 2, b.getLsbD 1, b.getLsbD 0]

/-- The message bits of a byte sequence, first on the wire first. -/
def bitsOfBytes (s : List Byte) : List Bool := s.flatMap bitsOfByte

/-- The bit-serial form of R67. -/
def crc16Serial (s : List Byte) : Half := (bitsOfBytes s).foldl crcSerialBit crcInit

/-- The table of R69: `T[b] = crc16([b])`. -/
def crcTable (b : Byte) : Half := crc16 [b]

/-- One step of the table-driven form of R69. -/
def crcTableStep (c : Half) (b : Byte) : Half := (c <<< 8) ^^^ crcTable (c.extractLsb' 8 8 ^^^ b)

/-- The table-driven form of R69. -/
def crc16Table (s : List Byte) : Half := s.foldl crcTableStep crcInit

end Sys2Proof.Machine
end

