-- ==== Sys2Proof/Machine/Params.lean ====
section
/-!
DEFINITION. The parameter values of this hardware (spec/00_scope.md R5; spec/92_eei_decisions.md, "Parameters a model
should carry").
-/
namespace Sys2Proof.Machine

/-- The values of R5. The modulus is 65535, not 65536 (R9). -/
def params : Config :=
  { headerLen := 10
    payloadMax := 1008
    seqModulus := 65535
    defaultFlags := 0x00
    defaultWindow := 0xFF
    defaultDlen := 0x03F0
    defaultPay := []
    crc16 := crc16 }

end Sys2Proof.Machine
end

