-- ==== Sys2Proof/Machine/Wire.lean ====
section
/-!
DEFINITION. The wire format (spec/30_encoding.md R45 to R49, big-endian by spec/20_memory.md R32) and the checksum of a
packet (spec/40_crc16.md R72, R73).
-/
namespace Sys2Proof.Machine

/-- `PLEN`: the actual payload length (spec/10_state.md R18). -/
def Packet.plen (p : Packet) : Nat := p.pay.length

/-- `be16(v)`: most significant byte first (spec/00_scope.md R7). -/
def be16 (v : Half) : List Byte := [v.extractLsb' 8 8, v.extractLsb' 0 8]

/-- `from_be16(b0, b1) = b0 * 256 + b1` (spec/00_scope.md R7). -/
def fromBe16 (b0 b1 : Byte) : Half := BitVec.ofNat 16 (b0.toNat * 256 + b1.toNat)

/-- `header_bytes`, R47: ten bytes in the order of R46. -/
def headerBytes (p : Packet) : List Byte :=
  be16 p.seq ++ be16 p.ack ++ [p.flags] ++ [p.window] ++ be16 p.dlen ++ be16 p.csum

/-- `wire_image`, R47: the header with the stored checksum, then all PLEN payload bytes whatever DLEN says. -/
def wireImage (p : Packet) : List Byte := headerBytes p ++ p.pay

/-- `parse_wire`, R48. The spec defines it for images of at least 10 bytes, and its one caller, DECODE, has checked that
(R82); a byte beyond a shorter image reads as zero here, which no operation can reach (log 7). -/
def parseWire (raw : List Byte) : Packet :=
  { seq := fromBe16 (raw.getD 0 0) (raw.getD 1 0)
    ack := fromBe16 (raw.getD 2 0) (raw.getD 3 0)
    flags := raw.getD 4 0
    window := raw.getD 5 0
    dlen := fromBe16 (raw.getD 6 0) (raw.getD 7 0)
    csum := fromBe16 (raw.getD 8 0) (raw.getD 9 0)
    pay := raw.drop 10 }

/-- `compute_checksum`, R72: the CRC of the image with the checksum field zero. The stored checksum is not read. -/
def computeChecksum (p : Packet) : Half := params.crc16 (wireImage { p with csum := 0 })

/-- `checksum_valid`, R73: by comparison, never by a residue (R74). -/
def checksumValid (p : Packet) : Bool := decide (p.csum = computeChecksum p)

end Sys2Proof.Machine
end

