-- ==== Sys2Proof/Machine/Ops.lean ====
section
/-!
DEFINITION. The shared operations: writing the slot, answering, raising an error status (spec/60_exceptions.md R141:
what this block has in the place of taking an exception; there is no return from one, R151), the endings of mutations
(spec/42_checksum_ops.md R91, spec/45_field_access.md R125) and the modular advance (spec/44_seqarith.md R105).
-/
namespace Sys2Proof.Machine

/-- The payload buffer's bound (spec/10_state.md R18, R23): PLEN at most PAYLOAD_MAX. A byte list is its own canonical
form: index `i` is cell `PAY[i]`, and cells from PLEN on are not state. -/
abbrev Memory.wf (m : List Byte) : Prop := m.length ≤ params.payloadMax

/-- `MemRead(addr, n)` of spec/00_scope.md R7: `n` bytes of the payload from index `addr`. -/
def memRead (m : List Byte) (addr n : Nat) : List Byte := (m.drop addr).take n

/-- Byte `i` of the payload, none at index PLEN and above (spec/20_memory.md R31). -/
def State.payByte (s : State) (i : Nat) : Option Byte := s.pkt.pay[i]?

/-- The slot's packet elements become `p`; VALID is not written. -/
def State.store (s : State) (p : Packet) : State := { s with pkt := p }

/-- A packet is loaded: all seven elements and VALID (CONSTRUCT and DECODE, R80, R82). -/
def State.load (s : State) (p : Packet) : State := { s with pkt := p, valid := true }

/-- `respond(status, result)` (spec/30_encoding.md R58). -/
def State.answer (s : State) (st : Status) (r : Result) : State := { s with resp := some ⟨st, r⟩ }

/-- The operation is performed: status OK and its result (spec/60_exceptions.md R140). -/
def performed (s : State) (r : Result) : Out := .next (s.answer .ok r)

/-- `raise <Status>`, R141: no state element is written, the response is the status alone, and the block is ready for
the next operation. -/
def raise (st : Status) (s : State) : Out := .next (s.answer st .none)

/-- The check every operation but CONSTRUCT and DECODE begins with (R146). -/
def needPacket (s : State) (k : Packet → Out) : Out :=
  if s.valid then k s.pkt else raise .noPacket s

/-- The length check of a payload operand (R145). -/
def needFit (pay : List Byte) (s : State) (k : Out) : Out :=
  if pay.length > params.payloadMax then raise .oversize s else k

/-- An operation that writes nothing and answers with a value of the packet (spec/20_memory.md R36). -/
def readOut (f : Packet → Result) (s : State) : Out := needPacket s (fun p => performed s (f p))

/-- An operation that rewrites the packet in place and answers (OK, none). -/
def mutate (f : Packet → Packet) (s : State) : Out :=
  needPacket s (fun p => performed (s.store (f p)) .none)

/-- A mutation that replaces the payload: VALID is checked before the length (R149). -/
def mutatePay (pay : List Byte) (f : Packet → Packet) (s : State) : Out :=
  needPacket s (fun p => needFit pay s (performed (s.store (f p)) .none))

/-- `update_checksum()`, R91. -/
def updateChecksum (p : Packet) : Packet := { p with csum := computeChecksum p }

/-- `DLEN <- zext_16(PLEN)`, R125. -/
def refreshLength (p : Packet) : Packet := { p with dlen := BitVec.ofNat 16 p.plen }

/-- `set_finish()`, R125: the length first, then the checksum, which covers it. -/
def setFinish (p : Packet) : Packet := updateChecksum (refreshLength p)

/-- `advance(cur, by) = (cur + by) mod 65535`, R105: the exact sum of naturals, reduced once. -/
def advance (cur : Half) (amount : Nat) : Half := BitVec.ofNat 16 ((cur.toNat + amount) % params.seqModulus)

/-- The status codes of R59. -/
def Status.code : Status → BitVec 3
  | .ok => 0
  | .truncatedHeader => 1
  | .oversize => 2
  | .noPacket => 3
  | .badOp => 4

/-- The label codes of R60; 7 is never produced. -/
def TypeLabel.code : TypeLabel → BitVec 3
  | .unclassified => 0
  | .syn => 1
  | .ack => 2
  | .fin => 3
  | .synAck => 4
  | .finAck => 5
  | .data => 6

/-- The kind of a result (the column `result` of R55). -/
def Result.kind : Result → ResultKind
  | .none => .none
  | .bit _ => .bit
  | .byte _ => .byte
  | .half _ => .half
  | .bytes _ => .bytes
  | .label _ => .label

end Sys2Proof.Machine
end

