-- ==== Sys2Proof/Machine/ChecksumOps.lean ====
section
/-!
DEFINITION. The checksum operations (spec/42_checksum_ops.md R90 to R92).
-/
namespace Sys2Proof.Machine

/-- CSUM.COMPUTE, R90: the stored checksum is neither read nor written. -/
def execCsumCompute (s : State) : Out := readOut (fun p => .half (computeChecksum p)) s

/-- CSUM.UPDATE, R91: CSUM only; DLEN is not refreshed. -/
def execCsumUpdate (s : State) : Out := mutate updateChecksum s

/-- CSUM.VERIFY, R92: a mismatch is the result 0 with status OK, not an error (spec/60_exceptions.md R143). -/
def execCsumVerify (s : State) : Out := readOut (fun p => .bit (checksumValid p)) s

end Sys2Proof.Machine
end

