-- ==== Sys2Proof/Machine/FieldAccess.lean ====
section
/-!
DEFINITION. Field access: the reads, the direct writes with PAY.CLEAR, and the sets (spec/45_field_access.md R110 to
R131).
-/
namespace Sys2Proof.Machine

/-- RD.SEQ, R111. -/
def execRdSeq (s : State) : Out := readOut (fun p => .half p.seq) s

/-- RD.ACK, R112: whether or not the ACK flag bit is set. -/
def execRdAck (s : State) : Out := readOut (fun p => .half p.ack) s

/-- RD.FLAGS, R113: the whole byte, reserved bits included. -/
def execRdFlags (s : State) : Out := readOut (fun p => .byte p.flags) s

/-- RD.WIN, R114. -/
def execRdWin (s : State) : Out := readOut (fun p => .byte p.window) s

/-- RD.DLEN, R115: the declared length as stored. -/
def execRdDlen (s : State) : Out := readOut (fun p => .half p.dlen) s

/-- RD.CSUM, R116: the stored checksum, stale or not. -/
def execRdCsum (s : State) : Out := readOut (fun p => .half p.csum) s

/-- RD.PAY, R117. -/
def execRdPay (s : State) : Out := readOut (fun p => .bytes (memRead p.pay 0 p.plen)) s

/-- WR.SEQ, R118: no reduction modulo 65535. -/
def execWrSeq (v : Half) (s : State) : Out := mutate (fun p => { p with seq := v }) s

/-- WR.ACK, R119. -/
def execWrAck (v : Half) (s : State) : Out := mutate (fun p => { p with ack := v }) s

/-- WR.FLAGS, R120: all eight bits. -/
def execWrFlags (v : Byte) (s : State) : Out := mutate (fun p => { p with flags := v }) s

/-- WR.WIN, R121. -/
def execWrWin (v : Byte) (s : State) : Out := mutate (fun p => { p with window := v }) s

/-- WR.DLEN, R122: any value, whatever the payload length. -/
def execWrDlen (v : Half) (s : State) : Out := mutate (fun p => { p with dlen := v }) s

/-- WR.CSUM, R123: any value, 0x0000 included. -/
def execWrCsum (v : Half) (s : State) : Out := mutate (fun p => { p with csum := v }) s

/-- WR.PAY, R124: the whole payload; DLEN and CSUM are not touched. -/
def execWrPay (pay : List Byte) (s : State) : Out := mutatePay pay (fun p => { p with pay := pay }) s

/-- PAY.CLEAR, R131: the payload only. -/
def execPayClear (s : State) : Out := mutate (fun p => { p with pay := [] }) s

/-- SET.SEQ, R126. -/
def execSetSeq (v : Half) (s : State) : Out := mutate (fun p => setFinish { p with seq := v }) s

/-- SET.ACK, R127. -/
def execSetAck (v : Half) (s : State) : Out := mutate (fun p => setFinish { p with ack := v }) s

/-- SET.FLAGS, R128: the whole byte, reserved bits overwritten. -/
def execSetFlags (v : Byte) (s : State) : Out := mutate (fun p => setFinish { p with flags := v }) s

/-- SET.WIN, R129. -/
def execSetWin (v : Byte) (s : State) : Out := mutate (fun p => setFinish { p with window := v }) s

/-- SET.PAY, R130. -/
def execSetPay (pay : List Byte) (s : State) : Out := mutatePay pay (fun p => setFinish { p with pay := pay }) s

end Sys2Proof.Machine
end

