-- ==== Sys2Proof/Machine/FlagOps.lean ====
section
/-!
DEFINITION. The flag operations: FLAGS.SET and CLASSIFY (spec/43_flags.md R95, R100).
-/
namespace Sys2Proof.Machine

/-- FLAGS.SET, R95: the three defined bits, then the checksum; DLEN is not refreshed. -/
def execFlagsSet (ack syn fin : Bool) (s : State) : Out :=
  mutate (fun p => updateChecksum { p with flags := setFlagBits p.flags ack syn fin }) s

/-- CLASSIFY, R100. -/
def execClassify (s : State) : Out := readOut (fun p => .label (classify p.flags p.plen)) s

end Sys2Proof.Machine
end

