-- ==== Sys2Proof/Machine/SeqArith.lean ====
section
/-!
DEFINITION. The modular sequence-number unit: SEQ.ADV and ACK.ADV (spec/44_seqarith.md R106, R107). There is no
comparison (R109).
-/
namespace Sys2Proof.Machine

/-- SEQ.ADV, R106. -/
def execSeqAdv (amount : Half) (s : State) : Out :=
  mutate (fun p => updateChecksum { p with seq := advance p.seq amount.toNat }) s

/-- ACK.ADV, R107. -/
def execAckAdv (amount : Half) (s : State) : Out :=
  mutate (fun p => updateChecksum { p with ack := advance p.ack amount.toNat }) s

end Sys2Proof.Machine
end

