-- ==== Sys2Proof/Machine/Operands.lean ====
section
/-!
DEFINITION. The operands of CONSTRUCT with their defaults (spec/41_serdes.md R80) and the field selector of the read,
write and set operations (spec/45_field_access.md R110).
-/
namespace Sys2Proof.Machine

/-- The packet CONSTRUCT's operands describe, defaults applied to the omitted ones, before its checksum rule: `csum` is
the operand, 0x0000 where it is omitted (R80). -/
def constructOperands (seq ack : Half) (flags window : Option Byte) (dlen : Option Half) (pay : Option (List Byte))
    (csum : Option Half) : Packet :=
  { seq := seq
    ack := ack
    flags := flags.getD params.defaultFlags
    window := window.getD params.defaultWindow
    dlen := dlen.getD params.defaultDlen
    csum := csum.getD 0x0000
    pay := pay.getD params.defaultPay }

/-- The elements the field selector `f` of R110 names, in the wire order. -/
inductive Field where
  | seq
  | ack
  | flags
  | win
  | dlen
  | csum
  | pay
  deriving DecidableEq, Repr

/-- The selector value of a field, R110. -/
def Field.selector : Field → Byte
  | .seq => 0
  | .ack => 1
  | .flags => 2
  | .win => 3
  | .dlen => 4
  | .csum => 5
  | .pay => 6

end Sys2Proof.Machine
end

