-- ==== Sys2Proof/Machine/Serdes.lean ====
section
/-!
DEFINITION. The packet header serializer and deserializer: CONSTRUCT, ENCODE, DECODE (spec/41_serdes.md R80 to R82).
-/
namespace Sys2Proof.Machine

/-- The checksum rule of CONSTRUCT, R80: a zero operand means "compute it", any other is stored verbatim. -/
def constructChecksum (p : Packet) : Packet := if p.csum = 0x0000 then updateChecksum p else p

/-- CONSTRUCT, R80. It needs no packet in the slot. -/
def execConstruct (seq ack : Half) (flags window : Option Byte) (dlen : Option Half) (pay : Option (List Byte))
    (csum : Option Half) (s : State) : Out :=
  let p := constructOperands seq ack flags window dlen pay csum
  needFit p.pay s (performed (s.load (constructChecksum p)) .none)

/-- DECODE, R82: every field verbatim, a wire checksum of zero included (spec/90_conflicts.md C1). -/
def execDecode (raw : List Byte) (s : State) : Out :=
  if raw.length < params.headerLen then raise .truncatedHeader s
  else if raw.length > params.packetMax then raise .oversize s
  else
    let p := parseWire raw
    performed (s.load p) (.label (classify p.flags p.plen))

/-- ENCODE, R81. -/
def execEncode (s : State) : Out := readOut (fun p => .bytes (wireImage p)) s

end Sys2Proof.Machine
end

