-- ==== Sys2Proof/Machine/Dispatch.lean ====
section
/-!
DEFINITION. One arm per operation of spec/30_encoding.md R55, each a direct call of its meaning.
-/
namespace Sys2Proof.Machine

def exec (i : Instr) (s : State) : Host.Outcome State Fault Refusal :=
  match i with
  | .construct seq ack flags window dlen pay csum => Sys2Proof.Machine.execConstruct seq ack flags window dlen pay csum s
  | .decodeWire raw => Sys2Proof.Machine.execDecode raw s
  | .encodeWire => Sys2Proof.Machine.execEncode s
  | .csumCompute => Sys2Proof.Machine.execCsumCompute s
  | .csumUpdate => Sys2Proof.Machine.execCsumUpdate s
  | .csumVerify => Sys2Proof.Machine.execCsumVerify s
  | .flagsSet ack syn fin => Sys2Proof.Machine.execFlagsSet ack syn fin s
  | .classify => Sys2Proof.Machine.execClassify s
  | .seqAdv amount => Sys2Proof.Machine.execSeqAdv amount s
  | .ackAdv amount => Sys2Proof.Machine.execAckAdv amount s
  | .rdSeq => Sys2Proof.Machine.execRdSeq s
  | .rdAck => Sys2Proof.Machine.execRdAck s
  | .rdFlags => Sys2Proof.Machine.execRdFlags s
  | .rdWin => Sys2Proof.Machine.execRdWin s
  | .rdDlen => Sys2Proof.Machine.execRdDlen s
  | .rdCsum => Sys2Proof.Machine.execRdCsum s
  | .rdPay => Sys2Proof.Machine.execRdPay s
  | .wrSeq v => Sys2Proof.Machine.execWrSeq v s
  | .wrAck v => Sys2Proof.Machine.execWrAck v s
  | .wrFlags v => Sys2Proof.Machine.execWrFlags v s
  | .wrWin v => Sys2Proof.Machine.execWrWin v s
  | .wrDlen v => Sys2Proof.Machine.execWrDlen v s
  | .wrCsum v => Sys2Proof.Machine.execWrCsum v s
  | .wrPay pay => Sys2Proof.Machine.execWrPay pay s
  | .payClear => Sys2Proof.Machine.execPayClear s
  | .setSeq v => Sys2Proof.Machine.execSetSeq v s
  | .setAck v => Sys2Proof.Machine.execSetAck v s
  | .setFlags v => Sys2Proof.Machine.execSetFlags v s
  | .setWin v => Sys2Proof.Machine.execSetWin v s
  | .setPay pay => Sys2Proof.Machine.execSetPay pay s

end Sys2Proof.Machine
end

