-- ==== Sys2Proof/Machine/Fetch.lean ====
section
/-!
DEFINITION. How the step takes what the host presents (the block fetches nothing, spec/10_state.md R17): the reset
input, a request handed to the executor, and a request put at the head of the queue.
-/
namespace Sys2Proof.Machine

/-- The reset input (spec/70_reset_and_hazards.md R160): every state becomes the reset state. What the host does
afterwards is not the block's to forget (log 2). -/
def resetInput (rest : List HostEvent) : State := { State.reset with pending := rest }

/-- A request executed on the state left by the operation before it: decoded, and given to the executor; an unassigned
code answers BAD_OP whatever VALID is (R147, R149). -/
def execRequest (run : Instr → State → Out) (r : Request) (s : State) : Out :=
  match decode r with
  | .instr i => run i s
  | .badOp => raise .badOp s

/-- The request becomes the host's next event. -/
def presentNext (s : State) (r : Request) : State := { s with pending := .present r :: s.pending }

end Sys2Proof.Machine
end

