-- ==== Sys2Proof/Machine/Step.lean ====
section
/-!
DEFINITION. One step of the machine: the host's next event takes effect, atomically and in the order presented
(spec/20_memory.md R40).
-/
namespace Sys2Proof.Machine

/-- One step. With nothing presented the block does nothing (spec/00_scope.md R2; log 3). A reset gives the reset state
(spec/70_reset_and_hazards.md R160). A request is decoded and executed (R43: exactly as presented), an unassigned code
answers BAD_OP (spec/60_exceptions.md R147). -/
def step (s : State) : Host.Outcome State Fault Refusal :=
  match s.pending with
  | [] => .next s
  | .reset :: rest => .next (resetInput rest)
  | .present r :: rest => execRequest exec r { s with pending := rest }

/-- The word of the opcode table presented as the next operation: its request is put at the head of the queue, before
whatever the host does next. -/
def State.withFetchWord (s : State) (nbits w : Nat) : State := presentNext s (Request.ofWord nbits w)

end Sys2Proof.Machine
end

