-- ==== Sys2Proof/Machine/Pseudo.lean ====
section
/-!
DEFINITION. Programs as the host's lists of operations (spec/10_state.md R17) and the pseudo-operations of
spec/30_encoding.md R62, each a list of operations.
-/
namespace Sys2Proof.Machine

/-- The operations of a list, one after the other, each on the state the one before it left (spec/20_memory.md R40). -/
def execAll : List Instr → State → Out
  | [], s => .next s
  | i :: is, s =>
    match exec i s with
    | .next t => execAll is t
    | .fault f => .fault f
    | .refused r => .refused r

/-- `FRESH seq=<s> ack=<a>`: CONSTRUCT with every optional operand omitted (R62). -/
def pseudoFresh (seq ack : Half) : List Instr := [.construct seq ack none none none none none]

/-- The settable fields with their values: SET exists for SEQ, ACK, FLAGS, WIN and PAY (R125). -/
inductive FieldSet where
  | seq (v : Half)
  | ack (v : Half)
  | flags (v : Byte)
  | win (v : Byte)
  | pay (v : List Byte)
  deriving DecidableEq, Repr

/-- The field a set names. -/
def FieldSet.field : FieldSet → Fin 5
  | .seq _ => 0
  | .ack _ => 1
  | .flags _ => 2
  | .win _ => 3
  | .pay _ => 4

/-- The SET operation of a field with its value (R126 to R130). -/
def FieldSet.instr : FieldSet → Instr
  | .seq v => .setSeq v
  | .ack v => .setAck v
  | .flags v => .setFlags v
  | .win v => .setWin v
  | .pay v => .setPay v

/-- The field's write alone, without the ending of R125 (the batch operation of spec/45_field_access.md R132 applies
these, then the ending once). -/
def FieldSet.write (f : FieldSet) (p : Packet) : Packet :=
  match f with
  | .seq v => { p with seq := v }
  | .ack v => { p with ack := v }
  | .flags v => { p with flags := v }
  | .win v => { p with window := v }
  | .pay v => { p with pay := v }

/-- The value fits its field (a payload of at most 1008 bytes, R145). -/
def FieldSet.fits : FieldSet → Bool
  | .pay v => decide (v.length ≤ params.payloadMax)
  | .seq _ => true
  | .ack _ => true
  | .flags _ => true
  | .win _ => true

/-- `SET.MANY f1=v1 ... fk=vk` (R62). -/
def pseudoSetMany (fs : List FieldSet) : List Instr := fs.map FieldSet.instr

/-- `SYNC` by a set of the window to the value RD.WIN gave (R62). -/
def pseudoSync (window : Byte) : List Instr := [.setWin window]

/-- `SYNC` by direct writes, when the host knows PLEN (R62). -/
def pseudoSyncDirect (plen : Half) : List Instr := [.wrDlen plen, .csumUpdate]

/-- `STRIP.ACK` (R62). -/
def pseudoStripAck : List Instr := [.payClear, .wrDlen 0, .flagsSet true false false]

end Sys2Proof.Machine
end

