-- ==== Sys2Proof/Safety.lean ====
section
/-!
DEFINITION. The terms claims about runs use: the invariant of the state (spec/10_state.md R23), send-ready
(spec/70_reset_and_hazards.md R166), the operations that only read (spec/20_memory.md R36), those that end with a
checksum update (spec/42_checksum_ops.md R94), and what the host may observe.
-/
namespace Sys2Proof.Machine

/-- The invariant of R23: PLEN is at most 1008, and with it an image is at most 1018 bytes. -/
def State.wf (s : State) : Prop := Memory.wf s.pkt.pay

/-- Send-ready, R166. -/
def State.sendReady (s : State) : Bool := s.valid && checksumValid s.pkt

/-- The operations that write no state element (R36): ENCODE, CSUM.COMPUTE, CSUM.VERIFY, CLASSIFY and every RD. -/
def readOnly : Instr → Bool
  | .encodeWire | .csumCompute | .csumVerify | .classify => true
  | .rdSeq | .rdAck | .rdFlags | .rdWin | .rdDlen | .rdCsum | .rdPay => true
  | .construct _ _ _ _ _ _ _ | .decodeWire _ => false
  | .csumUpdate | .flagsSet _ _ _ | .seqAdv _ | .ackAdv _ => false
  | .wrSeq _ | .wrAck _ | .wrFlags _ | .wrWin _ | .wrDlen _ | .wrCsum _ | .wrPay _ | .payClear => false
  | .setSeq _ | .setAck _ | .setFlags _ | .setWin _ | .setPay _ => false

/-- The operations that load a packet (R24: the two that do not need one). -/
def loads : Instr → Bool
  | .construct _ _ _ _ _ _ _ | .decodeWire _ => true
  | .encodeWire | .csumCompute | .csumUpdate | .csumVerify | .flagsSet _ _ _ | .classify | .seqAdv _ | .ackAdv _ => false
  | .rdSeq | .rdAck | .rdFlags | .rdWin | .rdDlen | .rdCsum | .rdPay => false
  | .wrSeq _ | .wrAck _ | .wrFlags _ | .wrWin _ | .wrDlen _ | .wrCsum _ | .wrPay _ | .payClear => false
  | .setSeq _ | .setAck _ | .setFlags _ | .setWin _ | .setPay _ => false

/-- The operations that end with a checksum update whenever they are performed (the "yes" rows of R94). -/
def endsWithUpdate : Instr → Bool
  | .csumUpdate | .flagsSet _ _ _ | .seqAdv _ | .ackAdv _ => true
  | .setSeq _ | .setAck _ | .setFlags _ | .setWin _ | .setPay _ => true
  | .construct _ _ _ _ _ _ _ | .decodeWire _ | .encodeWire | .csumCompute | .csumVerify | .classify => false
  | .rdSeq | .rdAck | .rdFlags | .rdWin | .rdDlen | .rdCsum | .rdPay => false
  | .wrSeq _ | .wrAck _ | .wrFlags _ | .wrWin _ | .wrDlen _ | .wrCsum _ | .wrPay _ | .payClear => false

/-- The operations whose writes include the reserved flag bits (spec/10_state.md R13). -/
def writesReservedFlags : Instr → Bool
  | .construct _ _ _ _ _ _ _ | .decodeWire _ | .wrFlags _ | .setFlags _ => true
  | .encodeWire | .csumCompute | .csumUpdate | .csumVerify | .flagsSet _ _ _ | .classify | .seqAdv _ | .ackAdv _ => false
  | .rdSeq | .rdAck | .rdFlags | .rdWin | .rdDlen | .rdCsum | .rdPay => false
  | .wrSeq _ | .wrAck _ | .wrWin _ | .wrDlen _ | .wrCsum _ | .wrPay _ | .payClear => false
  | .setSeq _ | .setAck _ | .setWin _ | .setPay _ => false

/-- The elements an operation may write: the `w` entries of the access matrix (spec/10_state.md R24). VALID, which only
the two loaders write, is not in the list. -/
def writes : Instr → List Field
  | .construct _ _ _ _ _ _ _ | .decodeWire _ => [.seq, .ack, .flags, .win, .dlen, .csum, .pay]
  | .encodeWire | .csumCompute | .csumVerify | .classify => []
  | .csumUpdate => [.csum]
  | .flagsSet _ _ _ => [.flags, .csum]
  | .seqAdv _ => [.seq, .csum]
  | .ackAdv _ => [.ack, .csum]
  | .rdSeq | .rdAck | .rdFlags | .rdWin | .rdDlen | .rdCsum | .rdPay => []
  | .wrSeq _ => [.seq]
  | .wrAck _ => [.ack]
  | .wrFlags _ => [.flags]
  | .wrWin _ => [.win]
  | .wrDlen _ => [.dlen]
  | .wrCsum _ => [.csum]
  | .wrPay _ | .payClear => [.pay]
  | .setSeq _ => [.seq, .dlen, .csum]
  | .setAck _ => [.ack, .dlen, .csum]
  | .setFlags _ => [.flags, .dlen, .csum]
  | .setWin _ => [.win, .dlen, .csum]
  | .setPay _ => [.dlen, .csum, .pay]

/-- What the host can observe of a state: VALID, the packet while there is one (spec/10_state.md R19, R25: while
`VALID = 0` the packet elements are never observable), what it will do next, and the last response. -/
def State.observed (s : State) : Option Packet × List HostEvent × Option Response :=
  (if s.valid then some s.pkt else none, s.pending, s.resp)

/-- What the host can observe of an outcome. -/
def observedOut : Out → Option (Option Packet × List HostEvent × Option Response)
  | .next s => some s.observed
  | .fault _ => none
  | .refused _ => none

/-- The image with bit `k` of byte `i` flipped. -/
def flipBit (l : List Byte) (i : Nat) (k : Fin 8) : List Byte :=
  l.modify i (fun b => b ^^^ (1#8 <<< k.val))

/-- Byte-by-byte exclusive or of two sequences (spec/40_crc16.md R71, law 4). -/
def xorBytes (a b : List Byte) : List Byte := List.zipWith (fun x y => x ^^^ y) a b

end Sys2Proof.Machine
end

