-- ==== Sys2Proof/Certificates/Slice0/Obligations.lean ====
section
/-!
DEFINITION. The statements for the provers. Each formalises or follows from the rules of spec/ its docstring names. A
statement about an operation gives its whole next state: what the equation does not write is unchanged.
-/

open Sys2Proof Sys2Proof.Machine

/-! ## Encoding and the operation interface -/

/-- Decode and encode agree, for every operation with every operand (30_encoding R53 to R55), those with a byte sequence
longer than R54's range included (that the decoder takes these is the model's choice, log 6). -/
def Obligations.DecodeEncodeRoundTrip : Prop :=
  ∀ i : Instr, decode (encode i) = .instr i

/-- What the decoder reads is an operation under the code it was presented with, that code has a row in the table of
30_encoding R55, the operation carries the value of every port it uses (its encoding agrees with the request on them), and
if the BYTES port is in R54's range, every operand is. -/
def Obligations.DecodedOperationsFitThePorts : Prop :=
  ∀ (r : Request) (i : Instr), decode r = .instr i →
    i.opcode = r.op ∧ (opRow r.op).isSome = true ∧ (encode i).sameUsedPorts r ∧
      (r.data.length ≤ 65535 → i.wellFormed = true)

/-- 30_encoding R57: port values an operation does not use influence neither the state nor the response. -/
def Obligations.IgnoredPortsHaveNoInfluence : Prop :=
  ∀ (s : State) (r q : Request) (rest : List HostEvent), r.sameUsedPorts q →
    step { s with pending := .present r :: rest } = step { s with pending := .present q :: rest }

/-- 60_exceptions R147 with 30_encoding R56: a code outside the thirty answers BAD_OP, whatever the ports carry and
whatever VALID is, and changes nothing; there are 226 such codes. -/
def Obligations.UnassignedCodesAnswerBadOp : Prop :=
  let codes : List Byte :=
    [0x01, 0x02, 0x03, 0x10, 0x11, 0x12, 0x20, 0x21, 0x30, 0x31, 0x40, 0x41, 0x42, 0x43, 0x44, 0x45, 0x46, 0x50, 0x51,
      0x52, 0x53, 0x54, 0x55, 0x56, 0x58, 0x60, 0x61, 0x62, 0x63, 0x66]
  (∀ (s : State) (r : Request) (rest : List HostEvent), s.pending = .present r :: rest → r.op ∉ codes →
    step s = .next { s with pending := rest, resp := some ⟨.badOp, .none⟩ }) ∧
  (∀ (r : Request), r.op ∈ codes → decode r ≠ .badOp) ∧
  ((List.range 256).filter (fun n => decide (BitVec.ofNat 8 n ∉ codes))).length = 226

/-- A few requests written out from the table of 30_encoding R55 decode to the operations they stand for. -/
def Obligations.SampleRequestsDecode : Prop :=
  decodeTableWord 8 0x01 = some (.construct 0 0 none none none none none) ∧
  decodeTableWord 8 0x03 = some .encodeWire ∧
  decodeTableWord 8 0x12 = some .csumVerify ∧
  decode { Request.blank 0x02 with data := [0x00, 0x64] } = .instr (.decodeWire [0x00, 0x64]) ∧
  decode { Request.blank 0x20 with afs := 0b010 } = .instr (.flagsSet false true false) ∧
  decode { Request.blank 0x30 with v16 := 0xFFFE } = .instr (.seqAdv 0xFFFE) ∧
  decode { Request.blank 0x46 with v8 := 0xFF } = .instr .rdPay ∧
  decode { Request.blank 0x62 with v8 := 0x10 } = .instr (.setFlags 0x10) ∧
  decodeTableWord 8 0x64 = none

/-- A step with a request at the head of the queue takes it off the queue and runs the operation it decodes to, exactly
as presented (20_memory R40, R43). -/
def Obligations.StepRunsTheDecodedOperation : Prop :=
  ∀ (s : State) (r : Request) (rest : List HostEvent) (i : Instr),
    s.pending = .present r :: rest → decode r = .instr i → step s = exec i { s with pending := rest }

/-- The host's list of operations, presented in order, is executed as the fold of the operations over the state
(20_memory R40). -/
def Obligations.QueuedProgramsRunAsFolds : Prop :=
  ∀ (is : List Instr) (s : State) (rest : List HostEvent),
    Host.Core.run Sys2Proof.core is.length
        ({ s with pending := is.map (fun i => HostEvent.present (encode i)) ++ rest } : State) =
      execAll is { s with pending := rest }

/-! ## Reset and VALID -/

/-- 70_reset R160: the reset input maps every state to the reset state, where VALID is 0. What the other elements hold
there, and that the host's queue survives, is the model's choice (log 1, log 2). -/
def Obligations.ResetInputGivesTheResetState : Prop :=
  ∀ (s : State) (rest : List HostEvent), s.pending = .reset :: rest →
    ∃ t, step s = .next t ∧ t.valid = false ∧ t = { State.reset with pending := rest }

/-- 10_state R25: after reset VALID is 0, and the values of the other elements are never observed, through any number
of steps: two states without a packet that agree on what the host does and last saw are told apart by nothing. -/
def Obligations.ResetValuesAreUnobservable : Prop :=
  State.reset.valid = false ∧
  ∀ (s t : State), s.valid = false → t.valid = false → s.pending = t.pending → s.resp = t.resp →
    ∀ k : Nat, observedOut (Host.Core.run Sys2Proof.core k s) = observedOut (Host.Core.run Sys2Proof.core k t)

/-- 10_state R19, 70_reset R160, R162: a step clears VALID only by the reset input, and sets it only by a CONSTRUCT or
DECODE that answers OK; one of the two that answers OK leaves it set. -/
def Obligations.ValidLifecycle : Prop :=
  State.reset.valid = false ∧
  (∀ s t : State, step s = .next t → s.valid = true → t.valid = false → s.pending.head? = some .reset) ∧
  (∀ s t : State, step s = .next t → s.valid = false → t.valid = true →
    ∃ r i res, s.pending.head? = some (.present r) ∧ decode r = .instr i ∧ loads i = true ∧
      t.resp = some ⟨.ok, res⟩) ∧
  (∀ (i : Instr) (s t : State) (res : Result), loads i = true → exec i s = .next t → t.resp = some ⟨.ok, res⟩ →
    t.valid = true)

/-- 60_exceptions R146: while VALID is 0, every operation but CONSTRUCT and DECODE answers NO_PACKET and changes
nothing. -/
def Obligations.WithoutAPacketNothingHappens : Prop :=
  ∀ (i : Instr) (s : State), s.valid = false →
    ((∀ seq ack flags window dlen pay csum, i ≠ .construct seq ack flags window dlen pay csum) →
      (∀ raw, i ≠ .decodeWire raw) →
      exec i s = .next { s with resp := some ⟨.noPacket, .none⟩ })

/-- A packet loaded with status OK owes nothing to the packet that was there (70_reset R163). -/
def Obligations.LoadersForgetThePreviousPacket : Prop :=
  ∀ (i : Instr) (s t : State) (res : Result) (p : Packet) (v : Bool), loads i = true → exec i s = .next t →
    t.resp = some ⟨.ok, res⟩ → exec i { s with pkt := p, valid := v } = .next t

/-! ## Invariant, errors, frames over all operations -/

/-- 10_state R23: every step keeps PLEN at most 1008, and with it an image at most 1018 bytes. -/
def Obligations.StepKeepsThePayloadBound : Prop :=
  ∀ s t : State, s.pkt.pay.length ≤ 1008 → step s = .next t →
    t.pkt.pay.length ≤ 1008 ∧ 10 ≤ (wireImage t.pkt).length ∧ (wireImage t.pkt).length ≤ 1018

/-- The reset state has the invariant of 10_state R23 (the empty payload there is the model's choice, log 1). -/
def Obligations.ResetHasThePayloadBound : Prop := State.reset.wf

/-- 60_exceptions R140: every operation ends in one of two ways: performed, status OK; or one of the error statuses. It
never stops the machine and answers in every state. So does a step on every request, whatever its code and ports, and no
step from any state stops. That a request with a byte sequence beyond R54's range is answered too, and that a step with
nothing presented is a next state, are the model's choices (log 6, log 3). -/
def Obligations.EveryOperationAnswers : Prop :=
  (∀ (i : Instr) (s : State), ∃ (t : State) (r : Response), exec i s = .next t ∧ t.resp = some r ∧
    t.pending = s.pending ∧
    (r.status = .ok ∨
      (r.status ∈ [Status.truncatedHeader, .oversize, .noPacket, .badOp] ∧ r.result = .none ∧ t.pkt = s.pkt ∧
        t.valid = s.valid))) ∧
  (∀ (s : State) (q : Request) (rest : List HostEvent), s.pending = .present q :: rest →
    ∃ (t : State) (r : Response), step s = .next t ∧ t.resp = some r ∧ t.pending = rest ∧
      (r.status = .ok ∨
        (r.status ∈ [Status.truncatedHeader, .oversize, .noPacket, .badOp] ∧ r.result = .none ∧ t.pkt = s.pkt ∧
          t.valid = s.valid))) ∧
  (∀ s : State, ∃ t, step s = .next t)

/-- 60_exceptions R141: an error status comes alone, no state element is written, and the next operation is treated
exactly as if the failed one had not been presented. -/
def Obligations.ErrorsChangeNothing : Prop :=
  ∀ (i : Instr) (s t : State) (r : Response), exec i s = .next t → t.resp = some r → r.status ≠ .ok →
    r.result = .none ∧ t.pkt = s.pkt ∧ t.valid = s.valid ∧ t.pending = s.pending ∧
      ∀ j : Instr, exec j t = exec j s

/-- 60_exceptions R142: which status arises from which cause at which operation, and the numbers of the statuses. -/
def Obligations.StatusesHaveTheirCauses : Prop :=
  (∀ (i : Instr) (s t : State) (r : Response), exec i s = .next t → t.resp = some r →
    (r.status ≠ .ok → r.result = .none) ∧
    (r.status = .truncatedHeader ↔ ∃ raw, i = .decodeWire raw ∧ raw.length < 10) ∧
    (r.status = .oversize ↔
      (∃ seq ack flags window dlen pay csum, i = .construct seq ack flags window dlen (some pay) csum ∧
        pay.length > 1008) ∨
      (∃ raw, i = .decodeWire raw ∧ raw.length > 1018) ∨
      (s.valid = true ∧ ∃ pay, (i = .wrPay pay ∨ i = .setPay pay) ∧ pay.length > 1008)) ∧
    (r.status = .noPacket ↔ s.valid = false ∧ loads i = false) ∧
    r.status ≠ .badOp) ∧
  (∀ (s t : State) (q : Request) (rest : List HostEvent) (r : Response), s.pending = .present q :: rest →
    step s = .next t → t.resp = some r → (r.status = .badOp ↔ opRow q.op = none)) ∧
  Status.ok.code = 0 ∧ Status.truncatedHeader.code = 1 ∧ Status.oversize.code = 2 ∧ Status.noPacket.code = 3 ∧
    Status.badOp.code = 4

/-- The result column of 30_encoding R55 with R58: an operation performed with status OK answers with a result of the
kind its row gives. -/
def Obligations.ResultsHaveTheirKind : Prop :=
  ∀ (i : Instr) (s t : State) (res : Result), exec i s = .next t → t.resp = some ⟨.ok, res⟩ →
    (opRow i.opcode).map OpRow.result = some res.kind

/-- The writes of the access matrix of 10_state R24: an element the matrix does not mark `w` for an operation is
unchanged, every byte of the payload included, and so are VALID (but for the two loaders) and the host's queue. -/
def Obligations.AccessMatrixFrame : Prop :=
  ∀ (i : Instr) (s t : State), exec i s = .next t →
    (.seq ∉ writes i → t.pkt.seq = s.pkt.seq) ∧ (.ack ∉ writes i → t.pkt.ack = s.pkt.ack) ∧
    (.flags ∉ writes i → t.pkt.flags = s.pkt.flags) ∧ (.win ∉ writes i → t.pkt.window = s.pkt.window) ∧
    (.dlen ∉ writes i → t.pkt.dlen = s.pkt.dlen) ∧ (.csum ∉ writes i → t.pkt.csum = s.pkt.csum) ∧
    (.pay ∉ writes i → ∀ a, t.payByte a = s.payByte a) ∧
    (loads i = false → t.valid = s.valid) ∧ t.pending = s.pending

/-- 20_memory R36: the operations that only read leave the whole state unchanged and, repeated on unchanged state,
return the same response every time. -/
def Obligations.ReadsHaveNoSideEffect : Prop :=
  ∀ (i : Instr) (s : State),
    i ∈ [Instr.encodeWire, .csumCompute, .csumVerify, .classify, .rdSeq, .rdAck, .rdFlags, .rdWin, .rdDlen, .rdCsum,
      .rdPay] →
    ∃ t, exec i s = .next t ∧ t.pkt = s.pkt ∧ t.valid = s.valid ∧ t.pending = s.pending ∧ exec i t = .next t

/-- The operations which write nothing commute: either order gives each the same response and the same slot (an
inference of the spec's own, 20_memory R41 "any order of them gives each the same response"). -/
def Obligations.ReadOnlyOperationsCommute : Prop :=
  ∀ (i j : Instr) (s : State), readOnly i = true → readOnly j = true →
    ∃ t u v w, exec i s = .next t ∧ exec j t = .next u ∧ exec j s = .next v ∧ exec i v = .next w ∧
      t.resp = w.resp ∧ u.resp = v.resp ∧ u.pkt = w.pkt ∧ u.valid = w.valid ∧ u.pending = w.pending

/-- 10_state R15: DLEN decides no length. Changing it changes no status, no payload, no type label and no length of a
byte result of any operation. -/
def Obligations.DeclaredLengthDecidesNoLength : Prop :=
  ∀ (i : Instr) (s : State) (d : Half) (t u : State) (r q : Response), exec i s = .next t →
    exec i { s with pkt := { s.pkt with dlen := d } } = .next u → t.resp = some r → u.resp = some q →
    r.status = q.status ∧ t.pkt.pay = u.pkt.pay ∧ t.valid = u.valid ∧
      (∀ l, r.result = .label l → q.result = .label l) ∧
      (∀ b, r.result = .bytes b → ∃ c, q.result = .bytes c ∧ c.length = b.length)

/-- 10_state R16, R24: only ENCODE, CSUM.VERIFY and RD.CSUM see the stored checksum. Every other operation answers the
same and leaves the same packet but for CSUM, whatever CSUM held. -/
def Obligations.StoredChecksumIsSeenOnlyWhereRead : Prop :=
  ∀ (i : Instr) (s : State) (c : Half) (t u : State), i ≠ .encodeWire → i ≠ .csumVerify → i ≠ .rdCsum →
    exec i s = .next t → exec i { s with pkt := { s.pkt with csum := c } } = .next u →
    t.resp = u.resp ∧ t.valid = u.valid ∧ { t.pkt with csum := 0 } = { u.pkt with csum := 0 }

/-- 10_state R13: the reserved bits 2, 3, 5, 6, 7 of FLAGS change by CONSTRUCT, DECODE, WR.FLAGS and SET.FLAGS only. -/
def Obligations.ReservedFlagBitsArePreserved : Prop :=
  ∀ (i : Instr) (s t : State), writesReservedFlags i = false → exec i s = .next t →
    ∀ k ∈ [2, 3, 5, 6, 7], t.pkt.flags.getLsbD k = s.pkt.flags.getLsbD k

/-- 42_checksum_ops R94, 70_reset R166: after an operation that ends with the checksum update, and after a CONSTRUCT
without a checksum of its own, the slot is send-ready. -/
def Obligations.UpdatesLeaveThePacketSendReady : Prop :=
  (∀ (i : Instr) (s t : State) (res : Result), endsWithUpdate i = true → exec i s = .next t →
    t.resp = some ⟨.ok, res⟩ → t.sendReady = true) ∧
  (∀ (seq ack : Half) (flags window : Option Byte) (dlen : Option Half) (pay : Option (List Byte)) (csum : Option Half)
    (s t : State) (res : Result), csum.getD 0 = 0 →
    exec (.construct seq ack flags window dlen pay csum) s = .next t → t.resp = some ⟨.ok, res⟩ → t.sendReady = true)

/-! ## The wire format -/

/-- 30_encoding R46: the image byte by byte and its length; and the header as one 80-bit big-endian number (this clause is
the spec's own inference from the table, "Seen as an 80-bit big-endian number"). -/
def Obligations.WireImageLayout : Prop :=
  ∀ p : Packet,
    (wireImage p).length = 10 + p.pay.length ∧
    (wireImage p)[0]? = some (p.seq.extractLsb' 8 8) ∧ (wireImage p)[1]? = some (p.seq.extractLsb' 0 8) ∧
    (wireImage p)[2]? = some (p.ack.extractLsb' 8 8) ∧ (wireImage p)[3]? = some (p.ack.extractLsb' 0 8) ∧
    (wireImage p)[4]? = some p.flags ∧ (wireImage p)[5]? = some p.window ∧
    (wireImage p)[6]? = some (p.dlen.extractLsb' 8 8) ∧ (wireImage p)[7]? = some (p.dlen.extractLsb' 0 8) ∧
    (wireImage p)[8]? = some (p.csum.extractLsb' 8 8) ∧ (wireImage p)[9]? = some (p.csum.extractLsb' 0 8) ∧
    (∀ i, i < p.pay.length → (wireImage p)[10 + i]? = p.pay[i]?) ∧
    ((wireImage p).take 10).foldl (fun n b => n * 256 + b.toNat) 0 =
      p.seq.toNat * 2 ^ 64 + p.ack.toNat * 2 ^ 48 + p.flags.toNat * 2 ^ 40 + p.window.toNat * 2 ^ 32 +
        p.dlen.toNat * 2 ^ 16 + p.csum.toNat

/-- Reading an image back gives the packet, and writing a read image gives the image (30_encoding R49; its second half
is the spec's own inference, "For every `raw` with `len(raw) >= 10`: `wire_image(parse_wire(raw)) = raw`"). -/
def Obligations.ParseAndSerialiseAreInverse : Prop :=
  (∀ p : Packet, parseWire (wireImage p) = p) ∧
  (∀ raw : List Byte, 10 ≤ raw.length → wireImage (parseWire raw) = raw)

/-! ## The checksum generator -/

/-- The bit-serial shift register gives the same value, and its bits follow the register equations: taps at 0, 5, 12
(the spec's own inference, 40_crc16 R67). -/
def Obligations.CrcSerialFormAgrees : Prop :=
  (∀ s : List Byte, crc16Serial s = crc16 s) ∧
  (∀ (c : Half) (d : Bool) (j : Nat), j < 16 →
    (crcSerialBit c d).getLsbD j =
      if j = 0 then c.getLsbD 15 ^^ d
      else if j = 5 ∨ j = 12 then c.getLsbD (j - 1) ^^ (c.getLsbD 15 ^^ d)
      else c.getLsbD (j - 1))

/-- The table-driven form gives the same value (the spec's own inference, 40_crc16 R69). -/
def Obligations.CrcTableFormAgrees : Prop :=
  ∀ s : List Byte, crc16Table s = crc16 s

/-- The running form takes a sequence in pieces (the spec's own inference, 40_crc16 R70). -/
def Obligations.CrcStreams : Prop :=
  (∀ s : List Byte, crc16 s = crc16From 0x0000 s) ∧
  (∀ a b : List Byte, crc16 (a ++ b) = crc16From (crc16 a) b)

/-- Leading zero bytes do not count (the spec's own inference, 40_crc16 R71 laws 2 and 3). -/
def Obligations.CrcIgnoresLeadingZeros : Prop :=
  crc16 [] = 0x0000 ∧
  ∀ (n : Nat) (s : List Byte), crc16 (List.replicate n 0x00 ++ s) = crc16 s

/-- The CRC is linear on sequences of equal length (the spec's own inference, 40_crc16 R71 law 4). -/
def Obligations.CrcIsLinear : Prop :=
  ∀ a b : List Byte, a.length = b.length → crc16 (xorBytes a b) = crc16 a ^^^ crc16 b

/-- Flipping any one bit of a sequence changes its CRC (the spec's own inference, 40_crc16 R71 law 5). -/
def Obligations.CrcDetectsSingleBitErrors : Prop :=
  ∀ (s : List Byte) (i : Nat) (k : Fin 8), i < s.length → crc16 (flipBit s i k) ≠ crc16 s

/-- The CRC is the remainder of `M(x) * x^16` by `x^16 + x^12 + x^5 + 1` over GF(2) (from general knowledge in the spec
itself, 40_crc16 R68; log 5). -/
def Obligations.CrcIsThePolynomialRemainder : Prop :=
  ∀ s : List Byte,
    (∑ j ∈ Finset.range 16, if (crc16 s).getLsbD j then (Polynomial.X : Polynomial (ZMod 2)) ^ j else 0) =
      ((∑ k ∈ Finset.range (8 * s.length),
          if (bitsOfBytes s).getD k false then (Polynomial.X : Polynomial (ZMod 2)) ^ (8 * s.length - 1 - k) else 0) *
        Polynomial.X ^ 16).modByMonic
          (Polynomial.X ^ 16 + Polynomial.X ^ 12 + Polynomial.X ^ 5 + 1)

/-- 40_crc16 R72: the checksum of a packet is the CRC of its image with zeros at offsets 8 and 9; the stored checksum
is no argument of it. -/
def Obligations.ChecksumIsTheCrcWithTheFieldZeroed : Prop :=
  ∀ p : Packet,
    computeChecksum p =
      crc16 ([p.seq.extractLsb' 8 8, p.seq.extractLsb' 0 8, p.ack.extractLsb' 8 8, p.ack.extractLsb' 0 8, p.flags,
        p.window, p.dlen.extractLsb' 8 8, p.dlen.extractLsb' 0 8, 0x00, 0x00] ++ p.pay)

/-- If the checksum of an image is valid, it fails for every image that differs in exactly one bit, inside or outside
the checksum field (the spec's own inference, 40_crc16 R75). -/
def Obligations.AnyBitFlipFailsVerification : Prop :=
  ∀ (p : Packet) (i : Nat) (k : Fin 8), checksumValid p = true → i < (wireImage p).length →
    checksumValid (parseWire (flipBit (wireImage p) i k)) = false

/-! ## CONSTRUCT, ENCODE, DECODE -/

/-- 41_serdes R80: CONSTRUCT with its defaults, its checksum rule and its one refusal. -/
def Obligations.ConstructLoadsItsOperands : Prop :=
  ∀ (seq ack : Half) (flags window : Option Byte) (dlen : Option Half) (pay : Option (List Byte)) (csum : Option Half)
    (s : State),
    (Instr.construct seq ack flags window dlen pay csum).opcode = 0x01 ∧
    ((pay.getD []).length > 1008 →
      exec (.construct seq ack flags window dlen pay csum) s = .next { s with resp := some ⟨.oversize, .none⟩ }) ∧
    ((pay.getD []).length ≤ 1008 →
      ∃ t, exec (.construct seq ack flags window dlen pay csum) s = .next t ∧
        t.pkt.seq = seq ∧ t.pkt.ack = ack ∧ t.pkt.flags = flags.getD 0x00 ∧ t.pkt.window = window.getD 0xFF ∧
        t.pkt.dlen = dlen.getD 0x03F0 ∧ t.pkt.pay = pay.getD [] ∧
        (csum.getD 0x0000 = 0x0000 → t.pkt.csum = computeChecksum t.pkt) ∧
        (csum.getD 0x0000 ≠ 0x0000 → t.pkt.csum = csum.getD 0x0000) ∧
        t.valid = true ∧ t.resp = some ⟨.ok, .none⟩ ∧ t.pending = s.pending)

/-- 41_serdes R81: ENCODE answers with the image of the stored fields, stale checksum included, 10 + PLEN bytes
whatever DLEN holds, and changes nothing. -/
def Obligations.EncodeReturnsTheImage : Prop :=
  ∀ s : State,
    Instr.encodeWire.opcode = 0x03 ∧
    (s.valid = false → exec .encodeWire s = .next { s with resp := some ⟨.noPacket, .none⟩ }) ∧
    (s.valid = true →
      exec .encodeWire s = .next { s with resp := some ⟨.ok, .bytes (wireImage s.pkt)⟩ } ∧
      (wireImage s.pkt).length = 10 + s.pkt.pay.length ∧
      (s.wf → 10 ≤ (wireImage s.pkt).length ∧ (wireImage s.pkt).length ≤ 1018))

/-- 41_serdes R82 with 30_encoding R48: DECODE stores every field of the image verbatim, a checksum of zero included,
takes every byte from offset 10 as payload, and answers with the type label; fewer than 10 bytes and more than 1018 are
answered by their statuses with nothing changed. -/
def Obligations.DecodeLoadsTheImage : Prop :=
  ∀ (raw : List Byte) (s : State),
    (Instr.decodeWire raw).opcode = 0x02 ∧
    (raw.length < 10 → exec (.decodeWire raw) s = .next { s with resp := some ⟨.truncatedHeader, .none⟩ }) ∧
    (raw.length > 1018 → exec (.decodeWire raw) s = .next { s with resp := some ⟨.oversize, .none⟩ }) ∧
    (10 ≤ raw.length → raw.length ≤ 1018 →
      ∃ t, exec (.decodeWire raw) s = .next t ∧
        t.pkt.seq.toNat = (raw.getD 0 0).toNat * 256 + (raw.getD 1 0).toNat ∧
        t.pkt.ack.toNat = (raw.getD 2 0).toNat * 256 + (raw.getD 3 0).toNat ∧
        t.pkt.flags = raw.getD 4 0 ∧ t.pkt.window = raw.getD 5 0 ∧
        t.pkt.dlen.toNat = (raw.getD 6 0).toNat * 256 + (raw.getD 7 0).toNat ∧
        t.pkt.csum.toNat = (raw.getD 8 0).toNat * 256 + (raw.getD 9 0).toNat ∧
        t.pkt.pay = raw.drop 10 ∧ t.pkt.pay.length = raw.length - 10 ∧ t.valid = true ∧
        t.resp = some ⟨.ok, .label (classify (raw.getD 4 0) (raw.length - 10))⟩ ∧ t.pending = s.pending)

/-- The label DECODE answers with is what CLASSIFY answers next (90_conflicts C9). -/
def Obligations.DecodeAnswersWhatClassifyAnswersNext : Prop :=
  ∀ (raw : List Byte) (s t : State) (l : TypeLabel), exec (.decodeWire raw) s = .next t →
    t.resp = some ⟨.ok, .label l⟩ → exec .classify t = .next t

/-- ENCODE then DECODE is the identity on the slot, a stale or zero checksum included; DECODE then ENCODE returns the
image (the spec's own inference, 41_serdes R83). -/
def Obligations.RoundTripThroughTheWire : Prop :=
  (∀ s : State, s.valid = true → s.wf →
    ∃ t w u l, exec .encodeWire s = .next t ∧ t.resp = some ⟨.ok, .bytes w⟩ ∧
      exec (.decodeWire w) t = .next u ∧ u.pkt = s.pkt ∧ u.valid = true ∧ u.resp = some ⟨.ok, .label l⟩) ∧
  (∀ (raw : List Byte) (s : State), 10 ≤ raw.length → raw.length ≤ 1018 →
    ∃ t, execAll [.decodeWire raw, .encodeWire] s = .next t ∧ t.resp = some ⟨.ok, .bytes raw⟩)

/-- A packet constructed without a checksum verifies after a trip through the wire, and fails if one bit of the image
was flipped on the way (the spec's own inference, 41_serdes R84). -/
def Obligations.ConstructedPacketVerifiesEndToEnd : Prop :=
  ∀ (seq ack : Half) (flags window : Option Byte) (dlen : Option Half) (pay : Option (List Byte)) (s : State),
    (pay.getD []).length ≤ 1008 →
    ∃ t w, execAll [.construct seq ack flags window dlen pay none, .encodeWire] s = .next t ∧
      t.resp = some ⟨.ok, .bytes w⟩ ∧
      (∃ u, execAll [.decodeWire w, .csumVerify] t = .next u ∧ u.resp = some ⟨.ok, .bit true⟩) ∧
      (∀ (i : Nat) (k : Fin 8), i < w.length →
        ∃ u, execAll [.decodeWire (flipBit w i k), .csumVerify] t = .next u ∧ u.resp = some ⟨.ok, .bit false⟩)

/-- The two loaders leave the same packet for a non-zero checksum; for a zero one DECODE stores the zero and CONSTRUCT
the computed value (the spec's own inference, 41_serdes R85). -/
def Obligations.LoadersDifferOnlyOnAZeroChecksum : Prop :=
  ∀ (raw : List Byte) (s : State), 10 ≤ raw.length → raw.length ≤ 1018 →
    let p := parseWire raw
    ∃ t u, exec (.decodeWire raw) s = .next t ∧
      exec (.construct p.seq p.ack (some p.flags) (some p.window) (some p.dlen) (some p.pay) (some p.csum)) s = .next u ∧
      t.valid = u.valid ∧ { t.pkt with csum := 0 } = { u.pkt with csum := 0 } ∧
      (p.csum ≠ 0x0000 → t.pkt = u.pkt) ∧
      (p.csum = 0x0000 → t.pkt.csum = 0x0000 ∧ u.pkt.csum = computeChecksum p)

/-! ## Checksum operations -/

/-- 42_checksum_ops R90, R91, R92: CSUM.COMPUTE answers with the computed checksum and stores nothing, CSUM.UPDATE
stores it in CSUM alone, CSUM.VERIFY compares it with the stored one and answers OK either way. -/
def Obligations.ChecksumOperations : Prop :=
  ∀ s : State,
    Instr.csumCompute.opcode = 0x10 ∧ Instr.csumUpdate.opcode = 0x11 ∧ Instr.csumVerify.opcode = 0x12 ∧
    (s.valid = false → ∀ i ∈ [Instr.csumCompute, .csumUpdate, .csumVerify],
      exec i s = .next { s with resp := some ⟨.noPacket, .none⟩ }) ∧
    (s.valid = true →
      exec .csumCompute s = .next { s with resp := some ⟨.ok, .half (computeChecksum s.pkt)⟩ } ∧
      exec .csumUpdate s =
        .next { s with pkt := { s.pkt with csum := computeChecksum s.pkt }, resp := some ⟨.ok, .none⟩ } ∧
      exec .csumVerify s = .next { s with resp := some ⟨.ok, .bit (decide (s.pkt.csum = computeChecksum s.pkt))⟩ })

/-- After CSUM.UPDATE a CSUM.VERIFY answers 1; CSUM.COMPUTE then WR.CSUM of its result leaves the packet CSUM.UPDATE
leaves; a second CSUM.UPDATE changes nothing (the spec's own inferences, 42_checksum_ops R93 and R91). -/
def Obligations.ChecksumLaws : Prop :=
  ∀ s : State, s.valid = true →
    ∃ t, exec .csumUpdate s = .next t ∧ exec .csumUpdate t = .next t ∧
      (∃ u, exec .csumVerify t = .next u ∧ u.resp = some ⟨.ok, .bit true⟩) ∧
      (∃ u c, exec .csumCompute s = .next u ∧ u.resp = some ⟨.ok, .half c⟩ ∧ exec (.wrCsum c) u = .next t) ∧
      (∃ u v c d, exec .csumCompute s = .next u ∧ u.resp = some ⟨.ok, .half c⟩ ∧ exec .rdCsum u = .next v ∧
        v.resp = some ⟨.ok, .half d⟩ ∧
        exec .csumVerify s = .next { s with resp := some ⟨.ok, .bit (decide (c = d))⟩ })

/-! ## Flags -/

/-- 43_flags R95: FLAGS.SET determines bits 4, 1, 0 of FLAGS from its three Booleans, keeps every other bit, then
updates the checksum; DLEN and everything else stay. -/
def Obligations.FlagsSetDeterminesTheDefinedBits : Prop :=
  ∀ (ack syn fin : Bool) (s : State),
    (Instr.flagsSet ack syn fin).opcode = 0x20 ∧
    (s.valid = false → exec (.flagsSet ack syn fin) s = .next { s with resp := some ⟨.noPacket, .none⟩ }) ∧
    (s.valid = true →
      ∃ f : Byte,
        (∀ k, k < 8 →
          f.getLsbD k = if k = 4 then ack else if k = 1 then syn else if k = 0 then fin else s.pkt.flags.getLsbD k) ∧
        exec (.flagsSet ack syn fin) s =
          .next { s with
            pkt := { s.pkt with flags := f, csum := computeChecksum { s.pkt with flags := f } }
            resp := some ⟨.ok, .none⟩ })

/-- The last FLAGS.SET wins entirely, repeating one changes nothing, and reading the three bits back gives the
Booleans (the spec's own inferences, 43_flags R97 and R98). -/
def Obligations.LastFlagsSetWins : Prop :=
  (∀ (a y f a' y' f' : Bool) (s : State), s.valid = true →
    execAll [.flagsSet a y f, .flagsSet a' y' f'] s = exec (.flagsSet a' y' f') s) ∧
  (∀ (x : Byte) (a y f : Bool),
    (setFlagBits x a y f).getLsbD 4 = a ∧ (setFlagBits x a y f).getLsbD 1 = y ∧ (setFlagBits x a y f).getLsbD 0 = f ∧
      setFlagBits x (x.getLsbD 4) (x.getLsbD 1) (x.getLsbD 0) = x)

/-- 43_flags R99, R100: CLASSIFY answers with the label of an exact match on the whole flags byte, otherwise by whether
the actual payload is empty, and changes nothing. -/
def Obligations.ClassifyIsExactMatch : Prop :=
  ∀ s : State,
    Instr.classify.opcode = 0x21 ∧
    (s.valid = false → exec .classify s = .next { s with resp := some ⟨.noPacket, .none⟩ }) ∧
    (s.valid = true →
      ∃ l : TypeLabel, exec .classify s = .next { s with resp := some ⟨.ok, .label l⟩ } ∧
        (s.pkt.flags = 0x02 → l = .syn) ∧ (s.pkt.flags = 0x10 → l = .ack) ∧ (s.pkt.flags = 0x01 → l = .fin) ∧
        (s.pkt.flags = 0x12 → l = .synAck) ∧ (s.pkt.flags = 0x11 → l = .finAck) ∧
        (s.pkt.flags ∉ ([0x02, 0x10, 0x01, 0x12, 0x11] : List Byte) →
          (s.pkt.pay ≠ [] → l = .data) ∧ (s.pkt.pay = [] → l = .unclassified)))

/-! ## The modular sequence-number unit -/

/-- 44_seqarith R106 with R105: SEQ.ADV adds modulo 65535 to SEQ, then updates the checksum; nothing else changes. -/
def Obligations.SeqAdvAddsModulo65535 : Prop :=
  ∀ (amount : Half) (s : State),
    (Instr.seqAdv amount).opcode = 0x30 ∧
    (s.valid = false → exec (.seqAdv amount) s = .next { s with resp := some ⟨.noPacket, .none⟩ }) ∧
    (s.valid = true →
      ∃ v : Half, v.toNat = (s.pkt.seq.toNat + amount.toNat) % 65535 ∧
        exec (.seqAdv amount) s =
          .next { s with
            pkt := { s.pkt with seq := v, csum := computeChecksum { s.pkt with seq := v } }
            resp := some ⟨.ok, .none⟩ })

/-- 44_seqarith R107 with R105: ACK.ADV is the same on ACK; it neither sets nor reads the ACK flag bit. -/
def Obligations.AckAdvAddsModulo65535 : Prop :=
  ∀ (amount : Half) (s : State),
    (Instr.ackAdv amount).opcode = 0x31 ∧
    (s.valid = false → exec (.ackAdv amount) s = .next { s with resp := some ⟨.noPacket, .none⟩ }) ∧
    (s.valid = true →
      ∃ v : Half, v.toNat = (s.pkt.ack.toNat + amount.toNat) % 65535 ∧
        exec (.ackAdv amount) s =
          .next { s with
            pkt := { s.pkt with ack := v, csum := computeChecksum { s.pkt with ack := v } }
            resp := some ⟨.ok, .none⟩ })

/-- The range, identities, composition and wrap-around of the advance (the spec's own inferences from 44_seqarith R105,
listed in R108 items 1 to 6 and 8). -/
def Obligations.AdvanceLaws : Prop :=
  ∀ (cur : Half) (a b : Nat),
    (advance cur a).toNat < 65535 ∧
    (cur ≠ 0xFFFF → advance cur 0 = cur ∧ advance cur 65535 = cur) ∧
    advance 0xFFFF 0 = 0 ∧ advance 0xFFFF 65535 = 0 ∧
    advance 0xFFFF a = advance 0 a ∧
    advance (advance cur a) b = advance cur (a + b) ∧
    advance 0xFFFE 1 = 0 ∧
    (cur ≠ 0xFFFF → 65535 ≤ cur.toNat + a → cur.toNat + a < 131070 → advance cur a = cur + BitVec.ofNat 16 a + 1)

/-! ## Field access -/

/-- 45_field_access R111 to R117: each RD answers with its element as stored and changes nothing. -/
def Obligations.ReadsReturnTheirElement : Prop :=
  ∀ s : State,
    Instr.rdSeq.opcode = 0x40 ∧ Instr.rdAck.opcode = 0x41 ∧ Instr.rdFlags.opcode = 0x42 ∧ Instr.rdWin.opcode = 0x43 ∧
    Instr.rdDlen.opcode = 0x44 ∧ Instr.rdCsum.opcode = 0x45 ∧ Instr.rdPay.opcode = 0x46 ∧
    (s.valid = false →
      ∀ i ∈ [Instr.rdSeq, .rdAck, .rdFlags, .rdWin, .rdDlen, .rdCsum, .rdPay],
        exec i s = .next { s with resp := some ⟨.noPacket, .none⟩ }) ∧
    (s.valid = true →
      exec .rdSeq s = .next { s with resp := some ⟨.ok, .half s.pkt.seq⟩ } ∧
      exec .rdAck s = .next { s with resp := some ⟨.ok, .half s.pkt.ack⟩ } ∧
      exec .rdFlags s = .next { s with resp := some ⟨.ok, .byte s.pkt.flags⟩ } ∧
      exec .rdWin s = .next { s with resp := some ⟨.ok, .byte s.pkt.window⟩ } ∧
      exec .rdDlen s = .next { s with resp := some ⟨.ok, .half s.pkt.dlen⟩ } ∧
      exec .rdCsum s = .next { s with resp := some ⟨.ok, .half s.pkt.csum⟩ } ∧
      exec .rdPay s = .next { s with resp := some ⟨.ok, .bytes s.pkt.pay⟩ })

/-- 45_field_access R118 to R123: each direct write of a field writes exactly that element: no checksum update, no
length refresh, no reduction of a counter. -/
def Obligations.DirectWritesWriteOneElement : Prop :=
  ∀ (v : Half) (b : Byte) (s : State),
    (Instr.wrSeq v).opcode = 0x50 ∧ (Instr.wrAck v).opcode = 0x51 ∧ (Instr.wrFlags b).opcode = 0x52 ∧
    (Instr.wrWin b).opcode = 0x53 ∧ (Instr.wrDlen v).opcode = 0x54 ∧ (Instr.wrCsum v).opcode = 0x55 ∧
    (s.valid = false →
      ∀ i ∈ [Instr.wrSeq v, .wrAck v, .wrFlags b, .wrWin b, .wrDlen v, .wrCsum v],
        exec i s = .next { s with resp := some ⟨.noPacket, .none⟩ }) ∧
    (s.valid = true →
      exec (.wrSeq v) s = .next { s with pkt := { s.pkt with seq := v }, resp := some ⟨.ok, .none⟩ } ∧
      exec (.wrAck v) s = .next { s with pkt := { s.pkt with ack := v }, resp := some ⟨.ok, .none⟩ } ∧
      exec (.wrFlags b) s = .next { s with pkt := { s.pkt with flags := b }, resp := some ⟨.ok, .none⟩ } ∧
      exec (.wrWin b) s = .next { s with pkt := { s.pkt with window := b }, resp := some ⟨.ok, .none⟩ } ∧
      exec (.wrDlen v) s = .next { s with pkt := { s.pkt with dlen := v }, resp := some ⟨.ok, .none⟩ } ∧
      exec (.wrCsum v) s = .next { s with pkt := { s.pkt with csum := v }, resp := some ⟨.ok, .none⟩ })

/-- 45_field_access R124: WR.PAY replaces the whole payload and nothing else; VALID is checked before the length. -/
def Obligations.WritePayReplacesThePayload : Prop :=
  ∀ (pay : List Byte) (s : State),
    (Instr.wrPay pay).opcode = 0x56 ∧
    (s.valid = false → exec (.wrPay pay) s = .next { s with resp := some ⟨.noPacket, .none⟩ }) ∧
    (s.valid = true → pay.length > 1008 → exec (.wrPay pay) s = .next { s with resp := some ⟨.oversize, .none⟩ }) ∧
    (s.valid = true → pay.length ≤ 1008 →
      exec (.wrPay pay) s = .next { s with pkt := { s.pkt with pay := pay }, resp := some ⟨.ok, .none⟩ })

/-- 45_field_access R131: PAY.CLEAR empties the payload and touches neither DLEN nor CSUM; it leaves what `WR.PAY []`
leaves. -/
def Obligations.PayClearEmptiesThePayload : Prop :=
  ∀ s : State,
    Instr.payClear.opcode = 0x58 ∧
    (s.valid = false → exec .payClear s = .next { s with resp := some ⟨.noPacket, .none⟩ }) ∧
    (s.valid = true →
      exec .payClear s = .next { s with pkt := { s.pkt with pay := [] }, resp := some ⟨.ok, .none⟩ } ∧
      exec .payClear s = exec (.wrPay []) s)

/-- 45_field_access R126 to R129 with R125: each SET of a field writes it, then DLEN from the actual payload length,
then the checksum over the new DLEN. -/
def Obligations.SetsWriteThenFinish : Prop :=
  ∀ (v : Half) (b : Byte) (s : State),
    let finish := fun q : Packet =>
      let r := { q with dlen := BitVec.ofNat 16 q.pay.length }
      State.mk { r with csum := computeChecksum r } s.valid s.pending (some ⟨.ok, .none⟩)
    (Instr.setSeq v).opcode = 0x60 ∧ (Instr.setAck v).opcode = 0x61 ∧ (Instr.setFlags b).opcode = 0x62 ∧
    (Instr.setWin b).opcode = 0x63 ∧
    (s.valid = false →
      ∀ i ∈ [Instr.setSeq v, .setAck v, .setFlags b, .setWin b],
        exec i s = .next { s with resp := some ⟨.noPacket, .none⟩ }) ∧
    (s.valid = true →
      exec (.setSeq v) s = .next (finish { s.pkt with seq := v }) ∧
      exec (.setAck v) s = .next (finish { s.pkt with ack := v }) ∧
      exec (.setFlags b) s = .next (finish { s.pkt with flags := b }) ∧
      exec (.setWin b) s = .next (finish { s.pkt with window := b }))

/-- 45_field_access R130 with R125: SET.PAY replaces the payload, sets DLEN to its length and updates the checksum; the
packet is then send-ready with DLEN equal to PLEN. -/
def Obligations.SetPayLeavesAConsistentPacket : Prop :=
  ∀ (pay : List Byte) (s : State),
    (Instr.setPay pay).opcode = 0x66 ∧
    (s.valid = false → exec (.setPay pay) s = .next { s with resp := some ⟨.noPacket, .none⟩ }) ∧
    (s.valid = true → pay.length > 1008 → exec (.setPay pay) s = .next { s with resp := some ⟨.oversize, .none⟩ }) ∧
    (s.valid = true → pay.length ≤ 1008 →
      ∃ t, exec (.setPay pay) s = .next t ∧ t.pkt.pay = pay ∧ t.pkt.dlen.toNat = pay.length ∧
        t.pkt.csum = computeChecksum t.pkt ∧ t.sendReady = true ∧ t.pkt.seq = s.pkt.seq ∧ t.pkt.ack = s.pkt.ack ∧
        t.pkt.flags = s.pkt.flags ∧ t.pkt.window = s.pkt.window ∧ t.pending = s.pending ∧
        t.resp = some ⟨.ok, .none⟩)

/-- A SET leaves what the WR of its field, then WR.DLEN of the payload length, then CSUM.UPDATE leave (the spec's own
inference, 45_field_access R133). -/
def Obligations.SetIsWritePlusTheEnding : Prop :=
  ∀ (v : Half) (b : Byte) (pay : List Byte) (s : State), s.valid = true → pay.length ≤ 1008 →
    let len := BitVec.ofNat 16 s.pkt.pay.length
    exec (.setSeq v) s = execAll [.wrSeq v, .wrDlen len, .csumUpdate] s ∧
    exec (.setAck v) s = execAll [.wrAck v, .wrDlen len, .csumUpdate] s ∧
    exec (.setFlags b) s = execAll [.wrFlags b, .wrDlen len, .csumUpdate] s ∧
    exec (.setWin b) s = execAll [.wrWin b, .wrDlen len, .csumUpdate] s ∧
    exec (.setPay pay) s = execAll [.wrPay pay, .wrDlen (BitVec.ofNat 16 pay.length), .csumUpdate] s

/-- A batch of SETs of distinct fields leaves, in any order, the state of the batch operation: all the writes, then one
refresh of DLEN and one checksum update (the spec's own inference, 45_field_access R132; SET.MANY of 30_encoding
R62). -/
def Obligations.SetBatchesAreOrderIndependent : Prop :=
  ∀ (fs gs : List FieldSet) (s : State), fs.Perm gs → (fs.map FieldSet.field).Nodup → (∀ f ∈ fs, f.fits = true) →
    fs ≠ [] → s.valid = true →
    execAll (pseudoSetMany gs) s =
      .next { s with
        pkt := setFinish (fs.foldl (fun p f => f.write p) s.pkt)
        resp := some ⟨.ok, .none⟩ }

/-- The pseudo-operations of 30_encoding R62 (the spec's own expansions): the two forms of SYNC leave the same state
with DLEN equal to PLEN and a valid checksum, STRIP.ACK leaves a valid pure ACK of the same counters, FRESH the default
packet. -/
def Obligations.PseudoOperationsDoWhatTheySay : Prop :=
  (∀ s : State, s.valid = true → s.wf →
    ∃ t, execAll (pseudoSync s.pkt.window) s = .next t ∧
      execAll (pseudoSyncDirect (BitVec.ofNat 16 s.pkt.pay.length)) s = .next t ∧
      t.pkt.dlen.toNat = s.pkt.pay.length ∧ t.sendReady = true ∧
      t.pkt = { s.pkt with dlen := t.pkt.dlen, csum := t.pkt.csum }) ∧
  (∀ s : State, s.valid = true →
    ∃ t, execAll pseudoStripAck s = .next t ∧ t.sendReady = true ∧ t.pkt.pay = [] ∧ t.pkt.dlen = 0 ∧
      t.pkt.flags = (s.pkt.flags &&& 0xEC) ||| 0x10 ∧ t.pkt.seq = s.pkt.seq ∧ t.pkt.ack = s.pkt.ack ∧
      t.pkt.window = s.pkt.window) ∧
  (∀ (seq ack : Half) (s : State),
    ∃ t, execAll (pseudoFresh seq ack) s = .next t ∧ t.sendReady = true ∧ t.pkt.seq = seq ∧ t.pkt.ack = ack ∧
      t.pkt.flags = 0 ∧ t.pkt.window = 255 ∧ t.pkt.dlen = 1008 ∧ t.pkt.pay = [])
end

