-- ==== Sys2Proof/Laws/Encoding.lean ====
section
/-!
SUPPORT. Small lemmas of the decoder and the encoder.
-/
namespace Sys2Proof

theorem fitsPort_iff (l : List Byte) : fitsPort l = true ↔ l.length ≤ 65535 := decide_eq_true_iff

@[simp] theorem fitsPort_nil : fitsPort [] = true := rfl

@[simp] theorem givenIf_true {α : Type} (v : α) : givenIf true v = some v := rfl

@[simp] theorem givenIf_false {α : Type} (v : α) : givenIf false v = none := rfl

/-- The five bits of the present mask (spec/30_encoding.md R54). -/
theorem presentMask_bits (f w d p c : Bool) :
    (presentMask f w d p c).getLsbD 0 = f ∧ (presentMask f w d p c).getLsbD 1 = w ∧
    (presentMask f w d p c).getLsbD 2 = d ∧ (presentMask f w d p c).getLsbD 3 = p ∧
    (presentMask f w d p c).getLsbD 4 = c := by
  cases f <;> cases w <;> cases d <;> cases p <;> cases c <;> decide

/-- The three bits of `afs` (spec/30_encoding.md R54). -/
theorem afsOf_bits (a y f : Bool) :
    (afsOf a y f).getLsbD 2 = a ∧ (afsOf a y f).getLsbD 1 = y ∧ (afsOf a y f).getLsbD 0 = f := by
  cases a <;> cases y <;> cases f <;> decide

end Sys2Proof
end

