-- ==== Sys2Proof/Laws/State.lean ====
section
/-!
SUPPORT. The small lemmas of the state: one per field per update, and the values of the parameters.
-/
namespace Sys2Proof.Machine

/-! ### The parameters of R5 -/

@[simp] theorem params_headerLen : params.headerLen = 10 := rfl
@[simp] theorem params_payloadMax : params.payloadMax = 1008 := rfl
@[simp] theorem params_packetMax : params.packetMax = 1018 := rfl
@[simp] theorem params_seqModulus : params.seqModulus = 65535 := rfl
@[simp] theorem params_defaultFlags : params.defaultFlags = 0x00 := rfl
@[simp] theorem params_defaultWindow : params.defaultWindow = 0xFF := rfl
@[simp] theorem params_defaultDlen : params.defaultDlen = 0x03F0 := rfl
@[simp] theorem params_defaultPay : params.defaultPay = [] := rfl
theorem params_crc16 : params.crc16 = crc16 := rfl

/-! ### Writing the slot -/

@[simp] theorem State.store_pkt (s : State) (p : Packet) : (s.store p).pkt = p := rfl
@[simp] theorem State.store_valid (s : State) (p : Packet) : (s.store p).valid = s.valid := rfl
@[simp] theorem State.store_pending (s : State) (p : Packet) : (s.store p).pending = s.pending := rfl
@[simp] theorem State.store_resp (s : State) (p : Packet) : (s.store p).resp = s.resp := rfl

@[simp] theorem State.load_pkt (s : State) (p : Packet) : (s.load p).pkt = p := rfl
@[simp] theorem State.load_valid (s : State) (p : Packet) : (s.load p).valid = true := rfl
@[simp] theorem State.load_pending (s : State) (p : Packet) : (s.load p).pending = s.pending := rfl
@[simp] theorem State.load_resp (s : State) (p : Packet) : (s.load p).resp = s.resp := rfl

@[simp] theorem State.answer_pkt (s : State) (st : Status) (r : Result) : (s.answer st r).pkt = s.pkt := rfl
@[simp] theorem State.answer_valid (s : State) (st : Status) (r : Result) : (s.answer st r).valid = s.valid := rfl
@[simp] theorem State.answer_pending (s : State) (st : Status) (r : Result) : (s.answer st r).pending = s.pending := rfl
@[simp] theorem State.answer_resp (s : State) (st : Status) (r : Result) : (s.answer st r).resp = some ⟨st, r⟩ := rfl

/-- An answer forgets the one before it. -/
@[simp] theorem State.answer_answer (s : State) (st st' : Status) (r r' : Result) :
    (s.answer st r).answer st' r' = s.answer st' r' := rfl

/-! ### The endings of mutations -/

@[simp] theorem updateChecksum_seq (p : Packet) : (updateChecksum p).seq = p.seq := rfl
@[simp] theorem updateChecksum_ack (p : Packet) : (updateChecksum p).ack = p.ack := rfl
@[simp] theorem updateChecksum_flags (p : Packet) : (updateChecksum p).flags = p.flags := rfl
@[simp] theorem updateChecksum_window (p : Packet) : (updateChecksum p).window = p.window := rfl
@[simp] theorem updateChecksum_dlen (p : Packet) : (updateChecksum p).dlen = p.dlen := rfl
@[simp] theorem updateChecksum_pay (p : Packet) : (updateChecksum p).pay = p.pay := rfl
@[simp] theorem updateChecksum_csum (p : Packet) : (updateChecksum p).csum = computeChecksum p := by simp only [updateChecksum]

@[simp] theorem refreshLength_seq (p : Packet) : (refreshLength p).seq = p.seq := rfl
@[simp] theorem refreshLength_ack (p : Packet) : (refreshLength p).ack = p.ack := rfl
@[simp] theorem refreshLength_flags (p : Packet) : (refreshLength p).flags = p.flags := rfl
@[simp] theorem refreshLength_window (p : Packet) : (refreshLength p).window = p.window := rfl
@[simp] theorem refreshLength_csum (p : Packet) : (refreshLength p).csum = p.csum := rfl
@[simp] theorem refreshLength_pay (p : Packet) : (refreshLength p).pay = p.pay := rfl
@[simp] theorem refreshLength_dlen (p : Packet) : (refreshLength p).dlen = BitVec.ofNat 16 p.pay.length := rfl

@[simp] theorem setFinish_seq (p : Packet) : (setFinish p).seq = p.seq := rfl
@[simp] theorem setFinish_ack (p : Packet) : (setFinish p).ack = p.ack := rfl
@[simp] theorem setFinish_flags (p : Packet) : (setFinish p).flags = p.flags := rfl
@[simp] theorem setFinish_window (p : Packet) : (setFinish p).window = p.window := rfl
@[simp] theorem setFinish_pay (p : Packet) : (setFinish p).pay = p.pay := rfl
@[simp] theorem setFinish_dlen (p : Packet) : (setFinish p).dlen = BitVec.ofNat 16 p.pay.length := rfl
@[simp] theorem setFinish_csum (p : Packet) : (setFinish p).csum = computeChecksum (refreshLength p) := by
  simp only [setFinish, updateChecksum]

/-- The computed checksum does not read the stored one (spec/40_crc16.md R72). -/
@[simp] theorem computeChecksum_with_csum (p : Packet) (c : Half) :
    computeChecksum { p with csum := c } = computeChecksum p := rfl

@[simp] theorem computeChecksum_updateChecksum (p : Packet) :
    computeChecksum (updateChecksum p) = computeChecksum p := rfl

end Sys2Proof.Machine
end

