-- ==== Sys2Proof/Laws/Ops.lean ====
section
/-!
SUPPORT. For each shared operation, everything it can do, said once.
-/
namespace Sys2Proof.Machine

/-- What `raise` does: the status alone is answered. -/
theorem raise_next (st : Status) (s t : State) : raise st s = .next t ↔ t = s.answer st .none := by
  simp [raise, eq_comm]

/-- What `performed` does. -/
theorem performed_next (s t : State) (r : Result) : performed s r = .next t ↔ t = s.answer .ok r := by
  simp [performed, eq_comm]

theorem needPacket_valid {s : State} (h : s.valid = true) (k : Packet → Out) : needPacket s k = k s.pkt := by
  simp [needPacket, h]

theorem needPacket_invalid {s : State} (h : s.valid = false) (k : Packet → Out) :
    needPacket s k = raise .noPacket s := by
  simp [needPacket, h]

theorem needFit_fits {pay : List Byte} (h : pay.length ≤ 1008) (s : State) (k : Out) : needFit pay s k = k := by
  simp [needFit, Nat.not_lt.mpr h]

theorem needFit_oversize {pay : List Byte} (h : 1008 < pay.length) (s : State) (k : Out) :
    needFit pay s k = raise .oversize s := by
  simp [needFit, h]

/-- What an operation that only reads can do. -/
theorem readOut_next (f : Packet → Result) (s t : State) :
    readOut f s = .next t ↔
      (s.valid = true ∧ t = s.answer .ok (f s.pkt)) ∨ (s.valid = false ∧ t = s.answer .noPacket .none) := by
  cases h : s.valid <;> simp [readOut, needPacket, h, performed_next, raise_next]

/-- What a mutation can do. -/
theorem mutate_next (f : Packet → Packet) (s t : State) :
    mutate f s = .next t ↔
      (s.valid = true ∧ t = (s.store (f s.pkt)).answer .ok .none) ∨
      (s.valid = false ∧ t = s.answer .noPacket .none) := by
  cases h : s.valid <;> simp [mutate, needPacket, h, performed_next, raise_next]

/-- What a mutation that replaces the payload can do. -/
theorem mutatePay_next (pay : List Byte) (f : Packet → Packet) (s t : State) :
    mutatePay pay f s = .next t ↔
      (s.valid = true ∧ pay.length ≤ 1008 ∧ t = (s.store (f s.pkt)).answer .ok .none) ∨
      (s.valid = true ∧ 1008 < pay.length ∧ t = s.answer .oversize .none) ∨
      (s.valid = false ∧ t = s.answer .noPacket .none) := by
  cases h : s.valid
  · simp [mutatePay, needPacket, h, raise_next]
  · by_cases hl : 1008 < pay.length
    · simp [mutatePay, needPacket, needFit, h, hl, raise_next, Nat.not_le.mpr hl]
    · simp [mutatePay, needPacket, needFit, h, hl, performed_next, Nat.not_lt.mp hl]

/-- What CONSTRUCT can do, `p` being its operands with the defaults applied. -/
theorem execConstruct_next (seq ack : Half) (flags window : Option Byte) (dlen : Option Half)
    (pay : Option (List Byte)) (csum : Option Half) (s t : State) :
    execConstruct seq ack flags window dlen pay csum s = .next t ↔
      ((pay.getD []).length ≤ 1008 ∧
        t = (s.load (constructChecksum (constructOperands seq ack flags window dlen pay csum))).answer .ok .none) ∨
      (1008 < (pay.getD []).length ∧ t = s.answer .oversize .none) := by
  by_cases h : 1008 < (pay.getD []).length
  · simp [execConstruct, constructOperands, needFit, h, raise_next, Nat.not_le.mpr h]
  · simp [execConstruct, constructOperands, needFit, h, performed_next, Nat.not_lt.mp h]

/-- What DECODE can do. -/
theorem execDecode_next (raw : List Byte) (s t : State) :
    execDecode raw s = .next t ↔
      (raw.length < 10 ∧ t = s.answer .truncatedHeader .none) ∨
      (1018 < raw.length ∧ t = s.answer .oversize .none) ∨
      (10 ≤ raw.length ∧ raw.length ≤ 1018 ∧
        t = (s.load (parseWire raw)).answer .ok
          (.label (classify (parseWire raw).flags (parseWire raw).plen))) := by
  by_cases h : raw.length < 10
  · have h' : ¬ 10 ≤ raw.length := by omega
    have h'' : ¬ 1018 < raw.length := by omega
    simp [execDecode, h, h', h'', raise_next]
  · by_cases hl : 1018 < raw.length
    · simp [execDecode, h, hl, Nat.not_le.mpr hl, raise_next]
    · simp [execDecode, h, hl, Nat.not_lt.mp h, Nat.not_lt.mp hl, performed_next]

/-! ### The same, evaluated -/

theorem readOut_valid {s : State} (h : s.valid = true) (f : Packet → Result) :
    readOut f s = .next (s.answer .ok (f s.pkt)) := (readOut_next _ _ _).mpr (.inl ⟨h, rfl⟩)

theorem readOut_invalid {s : State} (h : s.valid = false) (f : Packet → Result) :
    readOut f s = .next (s.answer .noPacket .none) := (readOut_next _ _ _).mpr (.inr ⟨h, rfl⟩)

theorem mutate_valid {s : State} (h : s.valid = true) (f : Packet → Packet) :
    mutate f s = .next ((s.store (f s.pkt)).answer .ok .none) := (mutate_next _ _ _).mpr (.inl ⟨h, rfl⟩)

theorem mutate_invalid {s : State} (h : s.valid = false) (f : Packet → Packet) :
    mutate f s = .next (s.answer .noPacket .none) := (mutate_next _ _ _).mpr (.inr ⟨h, rfl⟩)

theorem mutatePay_valid {s : State} (h : s.valid = true) {pay : List Byte} (hl : pay.length ≤ 1008)
    (f : Packet → Packet) : mutatePay pay f s = .next ((s.store (f s.pkt)).answer .ok .none) :=
  (mutatePay_next _ _ _ _).mpr (.inl ⟨h, hl, rfl⟩)

theorem mutatePay_oversize {s : State} (h : s.valid = true) {pay : List Byte} (hl : 1008 < pay.length)
    (f : Packet → Packet) : mutatePay pay f s = .next (s.answer .oversize .none) :=
  (mutatePay_next _ _ _ _).mpr (.inr (.inl ⟨h, hl, rfl⟩))

theorem mutatePay_invalid {s : State} (h : s.valid = false) (pay : List Byte) (f : Packet → Packet) :
    mutatePay pay f s = .next (s.answer .noPacket .none) :=
  (mutatePay_next _ _ _ _).mpr (.inr (.inr ⟨h, rfl⟩))

theorem execDecode_fits {raw : List Byte} (h : 10 ≤ raw.length) (hl : raw.length ≤ 1018) (s : State) :
    execDecode raw s =
      .next ((s.load (parseWire raw)).answer .ok (.label (classify (parseWire raw).flags (parseWire raw).plen))) :=
  (execDecode_next _ _ _).mpr (.inr (.inr ⟨h, hl, rfl⟩))

end Sys2Proof.Machine
end

