-- ==== Sys2Proof/Laws/Exec.lean ====
section
/-!
SUPPORT. Each operation as the shared operation it is, and what a step can do.
-/
namespace Sys2Proof.Machine

theorem exec_construct (seq ack : Half) (flags window : Option Byte) (dlen : Option Half) (pay : Option (List Byte))
    (csum : Option Half) (s : State) :
    exec (.construct seq ack flags window dlen pay csum) s = execConstruct seq ack flags window dlen pay csum s := rfl
theorem exec_decodeWire (raw : List Byte) (s : State) : exec (.decodeWire raw) s = execDecode raw s := rfl
theorem exec_encodeWire (s : State) : exec .encodeWire s = readOut (fun p => .bytes (wireImage p)) s := rfl
theorem exec_csumCompute (s : State) : exec .csumCompute s = readOut (fun p => .half (computeChecksum p)) s := rfl
theorem exec_csumUpdate (s : State) : exec .csumUpdate s = mutate updateChecksum s := rfl
theorem exec_csumVerify (s : State) : exec .csumVerify s = readOut (fun p => .bit (checksumValid p)) s := rfl
theorem exec_flagsSet (ack syn fin : Bool) (s : State) :
    exec (.flagsSet ack syn fin) s =
      mutate (fun p => updateChecksum { p with flags := setFlagBits p.flags ack syn fin }) s := rfl
theorem exec_classify (s : State) : exec .classify s = readOut (fun p => .label (classify p.flags p.plen)) s := rfl
theorem exec_seqAdv (amount : Half) (s : State) :
    exec (.seqAdv amount) s = mutate (fun p => updateChecksum { p with seq := advance p.seq amount.toNat }) s := rfl
theorem exec_ackAdv (amount : Half) (s : State) :
    exec (.ackAdv amount) s = mutate (fun p => updateChecksum { p with ack := advance p.ack amount.toNat }) s := rfl
theorem exec_rdSeq (s : State) : exec .rdSeq s = readOut (fun p => .half p.seq) s := rfl
theorem exec_rdAck (s : State) : exec .rdAck s = readOut (fun p => .half p.ack) s := rfl
theorem exec_rdFlags (s : State) : exec .rdFlags s = readOut (fun p => .byte p.flags) s := rfl
theorem exec_rdWin (s : State) : exec .rdWin s = readOut (fun p => .byte p.window) s := rfl
theorem exec_rdDlen (s : State) : exec .rdDlen s = readOut (fun p => .half p.dlen) s := rfl
theorem exec_rdCsum (s : State) : exec .rdCsum s = readOut (fun p => .half p.csum) s := rfl
theorem exec_rdPay (s : State) : exec .rdPay s = readOut (fun p => .bytes (memRead p.pay 0 p.plen)) s := rfl
theorem exec_wrSeq (v : Half) (s : State) : exec (.wrSeq v) s = mutate (fun p => { p with seq := v }) s := rfl
theorem exec_wrAck (v : Half) (s : State) : exec (.wrAck v) s = mutate (fun p => { p with ack := v }) s := rfl
theorem exec_wrFlags (v : Byte) (s : State) : exec (.wrFlags v) s = mutate (fun p => { p with flags := v }) s := rfl
theorem exec_wrWin (v : Byte) (s : State) : exec (.wrWin v) s = mutate (fun p => { p with window := v }) s := rfl
theorem exec_wrDlen (v : Half) (s : State) : exec (.wrDlen v) s = mutate (fun p => { p with dlen := v }) s := rfl
theorem exec_wrCsum (v : Half) (s : State) : exec (.wrCsum v) s = mutate (fun p => { p with csum := v }) s := rfl
theorem exec_wrPay (pay : List Byte) (s : State) :
    exec (.wrPay pay) s = mutatePay pay (fun p => { p with pay := pay }) s := rfl
theorem exec_payClear (s : State) : exec .payClear s = mutate (fun p => { p with pay := [] }) s := rfl
theorem exec_setSeq (v : Half) (s : State) :
    exec (.setSeq v) s = mutate (fun p => setFinish { p with seq := v }) s := rfl
theorem exec_setAck (v : Half) (s : State) :
    exec (.setAck v) s = mutate (fun p => setFinish { p with ack := v }) s := rfl
theorem exec_setFlags (v : Byte) (s : State) :
    exec (.setFlags v) s = mutate (fun p => setFinish { p with flags := v }) s := rfl
theorem exec_setWin (v : Byte) (s : State) :
    exec (.setWin v) s = mutate (fun p => setFinish { p with window := v }) s := rfl
theorem exec_setPay (pay : List Byte) (s : State) :
    exec (.setPay pay) s = mutatePay pay (fun p => setFinish { p with pay := pay }) s := rfl

/-! ### What any operation can do -/

/-- Without a packet, an operation that does not load one answers NO_PACKET. -/
theorem exec_invalid {i : Instr} {s : State} (hl : loads i = false) (h : s.valid = false) :
    exec i s = .next (s.answer .noPacket .none) := by
  cases i with
  | construct seq ack f w d p c => cases hl
  | decodeWire raw => cases hl
  | wrPay p => exact (exec_wrPay p s).trans (mutatePay_invalid h _ _)
  | setPay p => exact (exec_setPay p s).trans (mutatePay_invalid h _ _)
  | _ =>
    simp only [exec_encodeWire, exec_csumCompute, exec_csumUpdate, exec_csumVerify, exec_flagsSet, exec_classify,
      exec_seqAdv, exec_ackAdv, exec_rdSeq, exec_rdAck, exec_rdFlags, exec_rdWin, exec_rdDlen, exec_rdCsum,
      exec_rdPay, exec_wrSeq, exec_wrAck, exec_wrFlags, exec_wrWin, exec_wrDlen, exec_wrCsum, exec_payClear,
      exec_setSeq, exec_setAck, exec_setFlags, exec_setWin,
      readOut_invalid h, mutate_invalid h]

/-- The three ways an operation ends: it answers and writes nothing, it leaves a packet in a valid slot (the old one, for an
operation that only reads), or it loads a packet. -/
theorem exec_shape (i : Instr) (s : State) :
    (∃ st r, exec i s = .next (s.answer st r) ∧ (st ≠ .ok → r = .none)) ∨
    (∃ q r, exec i s = .next ((s.store q).answer .ok r) ∧ s.valid = true) ∨
    (∃ q r, exec i s = .next ((s.load q).answer .ok r) ∧ loads i = true) := by
  cases i with
  | construct seq ack f w d p c =>
    rcases Nat.lt_or_ge 1008 (p.getD []).length with hl | hl
    · exact .inl ⟨_, _, (execConstruct_next ..).mpr (.inr ⟨hl, rfl⟩), fun _ => rfl⟩
    · exact .inr (.inr ⟨_, _, (execConstruct_next ..).mpr (.inl ⟨hl, rfl⟩), rfl⟩)
  | decodeWire raw =>
    rcases Nat.lt_or_ge raw.length 10 with hl | hl
    · exact .inl ⟨_, _, (execDecode_next ..).mpr (.inl ⟨hl, rfl⟩), fun _ => rfl⟩
    · rcases Nat.lt_or_ge 1018 raw.length with hh | hh
      · exact .inl ⟨_, _, (execDecode_next ..).mpr (.inr (.inl ⟨hh, rfl⟩)), fun _ => rfl⟩
      · exact .inr (.inr ⟨_, _, execDecode_fits hl hh s, rfl⟩)
  | wrPay p =>
    rcases (Bool.eq_false_or_eq_true s.valid).symm with h | h
    · exact .inl ⟨_, _, exec_invalid rfl h, fun _ => rfl⟩
    rcases Nat.lt_or_ge 1008 p.length with hl | hl
    · exact .inl ⟨_, _, (exec_wrPay p s).trans (mutatePay_oversize h hl _), fun _ => rfl⟩
    · exact .inr (.inl ⟨_, _, (exec_wrPay p s).trans (mutatePay_valid h hl _), h⟩)
  | setPay p =>
    rcases (Bool.eq_false_or_eq_true s.valid).symm with h | h
    · exact .inl ⟨_, _, exec_invalid rfl h, fun _ => rfl⟩
    rcases Nat.lt_or_ge 1008 p.length with hl | hl
    · exact .inl ⟨_, _, (exec_setPay p s).trans (mutatePay_oversize h hl _), fun _ => rfl⟩
    · exact .inr (.inl ⟨_, _, (exec_setPay p s).trans (mutatePay_valid h hl _), h⟩)
  | _ =>
    rcases (Bool.eq_false_or_eq_true s.valid).symm with h | h
    · exact .inl ⟨_, _, exec_invalid rfl h, fun _ => rfl⟩
    simp only [exec_encodeWire, exec_csumCompute, exec_csumUpdate, exec_csumVerify, exec_flagsSet, exec_classify,
      exec_seqAdv, exec_ackAdv, exec_rdSeq, exec_rdAck, exec_rdFlags, exec_rdWin, exec_rdDlen, exec_rdCsum,
      exec_rdPay, exec_wrSeq, exec_wrAck, exec_wrFlags, exec_wrWin, exec_wrDlen, exec_wrCsum, exec_payClear,
      exec_setSeq, exec_setAck, exec_setFlags, exec_setWin,
      readOut_valid h, mutate_valid h]
    exact .inr (.inl ⟨_, _, rfl, h⟩)

/-! ### What a step can do -/

theorem step_idle {s : State} (h : s.pending = []) : step s = .next s := by simp [step, h]

theorem step_reset {s : State} {rest : List HostEvent} (h : s.pending = .reset :: rest) :
    step s = .next (resetInput rest) := by simp [step, h]

theorem step_present {s : State} {r : Request} {rest : List HostEvent} (h : s.pending = .present r :: rest) :
    step s = execRequest exec r { s with pending := rest } := by simp [step, h]

/-- What executing a request can do. -/
theorem execRequest_next (run : Instr → State → Out) (r : Request) (s t : State) :
    execRequest run r s = .next t ↔
      (∃ i, decode r = .instr i ∧ run i s = .next t) ∨ (decode r = .badOp ∧ t = s.answer .badOp .none) := by
  unfold execRequest
  cases h : decode r <;> simp [raise_next]

theorem execRequest_instr {run : Instr → State → Out} {r : Request} {i : Instr} (h : decode r = .instr i) (s : State) :
    execRequest run r s = run i s := by simp [execRequest, h]

/-- Executing a request always completes, if the operations do. -/
theorem execRequest_total {run : Instr → State → Out} (h : ∀ i s, ∃ t, run i s = .next t) (r : Request) (s : State) :
    ∃ t, execRequest run r s = .next t := by
  unfold execRequest
  cases decode r with
  | instr i => exact h i s
  | badOp => exact ⟨_, rfl⟩

/-- What a step can do: nothing, take the reset input, execute an operation, or answer BAD_OP. -/
theorem step_next (s t : State) :
    step s = .next t ↔
      (s.pending = [] ∧ t = s) ∨
      (∃ rest, s.pending = .reset :: rest ∧ t = resetInput rest) ∨
      (∃ r rest i, s.pending = .present r :: rest ∧ decode r = .instr i ∧
        exec i { s with pending := rest } = .next t) ∨
      (∃ r rest, s.pending = .present r :: rest ∧ decode r = .badOp ∧
        t = State.answer { s with pending := rest } .badOp .none) := by
  cases h : s.pending with
  | nil =>
    rw [step_idle h]
    simp [eq_comm (a := s)]
  | cons e rest =>
    cases e with
    | present r =>
      rw [step_present h, execRequest_next]
      simp
    | reset =>
      rw [step_reset h]
      simp [eq_comm (b := t)]

end Sys2Proof.Machine
end

