-- ==== Sys2Proof/Laws/Memory.lean ====
section
/-!
SUPPORT. The payload buffer keeps its bound under every shared operation (spec/10_state.md R18, R23), and its reads.
-/
namespace Sys2Proof.Machine

/-- The reset state's payload has its form. -/
theorem reset_memory_wf : Memory.wf State.reset.pkt.pay := by decide

/-- Reading the whole payload gives it (the read RD.PAY makes). -/
@[simp] theorem memRead_all (m : List Byte) : memRead m 0 m.length = m := by simp [memRead]

/-- Byte `i` of the payload is the one-byte read at `i`. -/
theorem payByte_eq_memRead (s : State) (i : Nat) : s.payByte i = (memRead s.pkt.pay i 1).head? := by
  simp [State.payByte, memRead, List.head?_take, List.head?_drop]

/-- Replacing the payload makes every byte of it the new one. -/
theorem payByte_store (s : State) (p : Packet) (i : Nat) : (s.store p).payByte i = p.pay[i]? := rfl

/-- An answer leaves every byte of the payload alone. -/
@[simp] theorem payByte_answer (s : State) (st : Status) (r : Result) (i : Nat) :
    (s.answer st r).payByte i = s.payByte i := rfl

@[simp] theorem updateChecksum_memory_wf (p : Packet) : Memory.wf (updateChecksum p).pay ↔ Memory.wf p.pay := Iff.rfl

@[simp] theorem setFinish_memory_wf (p : Packet) : Memory.wf (setFinish p).pay ↔ Memory.wf p.pay := Iff.rfl

/-- Reading keeps the bound. -/
theorem readOut_memory_wf {f : Packet → Result} {s t : State} (h : readOut f s = .next t)
    (hs : Memory.wf s.pkt.pay) : Memory.wf t.pkt.pay := by
  obtain ⟨_, rfl⟩ | ⟨_, rfl⟩ := (readOut_next f s t).mp h <;> exact hs

/-- A mutation that leaves the bound alone keeps it. -/
theorem mutate_memory_wf {f : Packet → Packet} {s t : State} (h : mutate f s = .next t)
    (hf : Memory.wf (f s.pkt).pay) (hs : Memory.wf s.pkt.pay) : Memory.wf t.pkt.pay := by
  obtain ⟨_, rfl⟩ | ⟨_, rfl⟩ := (mutate_next f s t).mp h
  · exact hf
  · exact hs

/-- Replacing the payload keeps the bound, because a longer one is refused (R145). -/
theorem mutatePay_memory_wf {pay : List Byte} {f : Packet → Packet} {s t : State} (h : mutatePay pay f s = .next t)
    (hf : (f s.pkt).pay = pay) (hs : Memory.wf s.pkt.pay) : Memory.wf t.pkt.pay := by
  obtain ⟨_, hl, rfl⟩ | ⟨_, _, rfl⟩ | ⟨_, rfl⟩ := (mutatePay_next pay f s t).mp h
  · show (f s.pkt).pay.length ≤ 1008
    rw [hf]
    exact hl
  · exact hs
  · exact hs

/-- CONSTRUCT keeps the bound. -/
theorem execConstruct_memory_wf {seq ack : Half} {flags window : Option Byte} {dlen : Option Half}
    {pay : Option (List Byte)} {csum : Option Half} {s t : State}
    (h : execConstruct seq ack flags window dlen pay csum s = .next t) (hs : Memory.wf s.pkt.pay) :
    Memory.wf t.pkt.pay := by
  obtain ⟨hl, rfl⟩ | ⟨_, rfl⟩ := (execConstruct_next seq ack flags window dlen pay csum s t).mp h
  · simp only [State.answer_pkt, State.load_pkt, constructChecksum]
    split <;> exact hl
  · exact hs

/-- DECODE keeps the bound. -/
theorem execDecode_memory_wf {raw : List Byte} {s t : State} (h : execDecode raw s = .next t)
    (hs : Memory.wf s.pkt.pay) : Memory.wf t.pkt.pay := by
  obtain ⟨_, rfl⟩ | ⟨_, rfl⟩ | ⟨_, hl, rfl⟩ := (execDecode_next raw s t).mp h
  · exact hs
  · exact hs
  · show (raw.drop 10).length ≤ 1008
    rw [List.length_drop]
    omega

end Sys2Proof.Machine
end

