-- ==== Sys2Proof/Laws/PerInstr.lean ====
section
/-!
SUPPORT. The per-instruction family TableRow: each operation has a row in the table of spec/30_encoding.md R55, under the
code the encoder puts on `OP`.
-/
namespace Sys2Proof.Laws.TableRow

/-- The encoder puts the operation's code on `OP`, and the table of R55 has a row for that code. -/
def Statement (i : Instr) : Prop := (encode i).op = i.opcode ∧ (opRow i.opcode).isSome = true

theorem construct (seq ack : Half) (flags window : Option Byte) (dlen : Option Half) (pay : Option (List Byte))
    (csum : Option Half) : Statement (.construct seq ack flags window dlen pay csum) := ⟨rfl, rfl⟩
theorem decodeWire (raw : List Byte) : Statement (.decodeWire raw) := ⟨rfl, rfl⟩
theorem encodeWire : Statement .encodeWire := ⟨rfl, rfl⟩
theorem csumCompute : Statement .csumCompute := ⟨rfl, rfl⟩
theorem csumUpdate : Statement .csumUpdate := ⟨rfl, rfl⟩
theorem csumVerify : Statement .csumVerify := ⟨rfl, rfl⟩
theorem flagsSet (ack syn fin : Bool) : Statement (.flagsSet ack syn fin) := ⟨rfl, rfl⟩
theorem classify : Statement .classify := ⟨rfl, rfl⟩
theorem seqAdv (amount : Half) : Statement (.seqAdv amount) := ⟨rfl, rfl⟩
theorem ackAdv (amount : Half) : Statement (.ackAdv amount) := ⟨rfl, rfl⟩
theorem rdSeq : Statement .rdSeq := ⟨rfl, rfl⟩
theorem rdAck : Statement .rdAck := ⟨rfl, rfl⟩
theorem rdFlags : Statement .rdFlags := ⟨rfl, rfl⟩
theorem rdWin : Statement .rdWin := ⟨rfl, rfl⟩
theorem rdDlen : Statement .rdDlen := ⟨rfl, rfl⟩
theorem rdCsum : Statement .rdCsum := ⟨rfl, rfl⟩
theorem rdPay : Statement .rdPay := ⟨rfl, rfl⟩
theorem wrSeq (v : Half) : Statement (.wrSeq v) := ⟨rfl, rfl⟩
theorem wrAck (v : Half) : Statement (.wrAck v) := ⟨rfl, rfl⟩
theorem wrFlags (v : Byte) : Statement (.wrFlags v) := ⟨rfl, rfl⟩
theorem wrWin (v : Byte) : Statement (.wrWin v) := ⟨rfl, rfl⟩
theorem wrDlen (v : Half) : Statement (.wrDlen v) := ⟨rfl, rfl⟩
theorem wrCsum (v : Half) : Statement (.wrCsum v) := ⟨rfl, rfl⟩
theorem wrPay (pay : List Byte) : Statement (.wrPay pay) := ⟨rfl, rfl⟩
theorem payClear : Statement .payClear := ⟨rfl, rfl⟩
theorem setSeq (v : Half) : Statement (.setSeq v) := ⟨rfl, rfl⟩
theorem setAck (v : Half) : Statement (.setAck v) := ⟨rfl, rfl⟩
theorem setFlags (v : Byte) : Statement (.setFlags v) := ⟨rfl, rfl⟩
theorem setWin (v : Byte) : Statement (.setWin v) := ⟨rfl, rfl⟩
theorem setPay (pay : List Byte) : Statement (.setPay pay) := ⟨rfl, rfl⟩

end Sys2Proof.Laws.TableRow
end

