-- ==== Sys2Proof/Laws/Wire.lean ====
section
/-!
SUPPORT. Small lemmas of the wire format and of the checksum generator.
-/
namespace Sys2Proof.Machine

@[simp] theorem be16_length (v : Half) : (be16 v).length = 2 := rfl

@[simp] theorem headerBytes_length (p : Packet) : (headerBytes p).length = 10 := rfl

theorem wireImage_length (p : Packet) : (wireImage p).length = 10 + p.plen := by
  simp [wireImage, Packet.plen]

@[simp] theorem parseWire_pay (raw : List Byte) : (parseWire raw).pay = raw.drop 10 := rfl

theorem parseWire_plen (raw : List Byte) : (parseWire raw).plen = raw.length - 10 := by
  simp [Packet.plen]

/-- `from_be16(be16(v)) = v`. -/
theorem fromBe16_be16 (v : Half) : fromBe16 (v.extractLsb' 8 8) (v.extractLsb' 0 8) = v := by
  apply BitVec.eq_of_toNat_eq
  have := v.isLt
  simp [fromBe16, BitVec.extractLsb'_toNat, Nat.shiftRight_eq_div_pow]
  omega

/-- `be16(from_be16(b0, b1)) = [b0, b1]`. -/
theorem be16_fromBe16 (b0 b1 : Byte) : be16 (fromBe16 b0 b1) = [b0, b1] := by
  have h0 := b0.isLt
  have h1 := b1.isLt
  simp only [be16, fromBe16, List.cons.injEq, and_true]
  constructor <;> apply BitVec.eq_of_toNat_eq <;>
    simp [BitVec.extractLsb'_toNat, Nat.shiftRight_eq_div_pow] <;> omega

@[simp] theorem crc16From_nil (c : Half) : crc16From c [] = c := rfl

@[simp] theorem crc16From_cons (c : Half) (b : Byte) (s : List Byte) :
    crc16From c (b :: s) = crc16From (crcByte c b) s := rfl

@[simp] theorem crcBits_zero (c : Half) : crcBits 0 c = c := rfl

@[simp] theorem crcBits_succ (n : Nat) (c : Half) : crcBits (n + 1) c = crcBits n (crcBit c) := rfl

end Sys2Proof.Machine
end

