-- ==== Sys2Proof/Machine/Written.lean ====
section
/-!
DEFINITION. The written syntax of operations and responses (spec/30_encoding.md R61), as a printer. Nothing in the
machine depends on it. DESIGN CHOICE (log 11): numbers are written in decimal, byte sequences as hexadecimal pairs.
-/
namespace Sys2Proof.Machine

/-- A hexadecimal digit. -/
def hexDigit (n : Nat) : Char := ("0123456789ABCDEF".toList).getD n '0'

/-- `<bytes>`: hexadecimal pairs separated by spaces, `[]` for the empty sequence (R61). -/
def writtenBytes (l : List Byte) : String :=
  match l with
  | [] => "[]"
  | _ :: _ => String.intercalate " " (l.map fun b => String.ofList [hexDigit (b.toNat / 16), hexDigit (b.toNat % 16)])

/-- A bracketed operand of CONSTRUCT: nothing where it is left out. -/
def writtenOption {α : Type} (name : String) (f : α → String) (v : Option α) : String :=
  match v with
  | none => ""
  | some x => " " ++ name ++ "=" ++ f x

/-- A numeric operand. -/
def writtenBits {n : Nat} (v : BitVec n) : String := Nat.repr v.toNat

/-- `<0|1>`. -/
def writtenBool (b : Bool) : String := if b then "1" else "0"

/-- The operands of an operation, each after a space (R61). -/
def writtenOperands : Instr → String
  | .construct seq ack flags window dlen pay csum =>
    " seq=" ++ writtenBits seq ++ " ack=" ++ writtenBits ack ++ writtenOption "flags" writtenBits flags ++
      writtenOption "window" writtenBits window ++ writtenOption "dlen" writtenBits dlen ++
      writtenOption "pay" writtenBytes pay ++ writtenOption "csum" writtenBits csum
  | .decodeWire raw => " " ++ writtenBytes raw
  | .encodeWire => ""
  | .csumCompute => ""
  | .csumUpdate => ""
  | .csumVerify => ""
  | .flagsSet ack syn fin =>
    " ack=" ++ writtenBool ack ++ " syn=" ++ writtenBool syn ++ " fin=" ++ writtenBool fin
  | .classify => ""
  | .seqAdv amount => " " ++ writtenBits amount
  | .ackAdv amount => " " ++ writtenBits amount
  | .rdSeq => ""
  | .rdAck => ""
  | .rdFlags => ""
  | .rdWin => ""
  | .rdDlen => ""
  | .rdCsum => ""
  | .rdPay => ""
  | .wrSeq v => " " ++ writtenBits v
  | .wrAck v => " " ++ writtenBits v
  | .wrFlags v => " " ++ writtenBits v
  | .wrWin v => " " ++ writtenBits v
  | .wrDlen v => " " ++ writtenBits v
  | .wrCsum v => " " ++ writtenBits v
  | .wrPay p => " " ++ writtenBytes p
  | .payClear => ""
  | .setSeq v => " " ++ writtenBits v
  | .setAck v => " " ++ writtenBits v
  | .setFlags v => " " ++ writtenBits v
  | .setWin v => " " ++ writtenBits v
  | .setPay p => " " ++ writtenBytes p

/-- The mnemonic of an operation code (R55). -/
def mnemonicOf (op : Byte) : String := ((opRow op).map OpRow.mnemonic).getD ""

/-- The written form of an operation: the mnemonic, then its operands (R61). -/
def written (i : Instr) : String := mnemonicOf i.opcode ++ writtenOperands i

/-- The written name of a status (R59, R61). -/
def writtenStatus : Status → String
  | .ok => "OK"
  | .truncatedHeader => "TRUNCATED_HEADER"
  | .oversize => "OVERSIZE"
  | .noPacket => "NO_PACKET"
  | .badOp => "BAD_OP"

/-- The written name of a label (R60). -/
def writtenLabel : TypeLabel → String
  | .unclassified => "UNCLASSIFIED"
  | .syn => "SYN"
  | .ack => "ACK"
  | .fin => "FIN"
  | .synAck => "SYN_ACK"
  | .finAck => "FIN_ACK"
  | .data => "DATA"

/-- The written form of a result, after a space. -/
def writtenResult : Result → String
  | .none => ""
  | .bit b => " " ++ writtenBool b
  | .byte v => " " ++ writtenBits v
  | .half v => " " ++ writtenBits v
  | .bytes l => " " ++ writtenBytes l
  | .label l => " " ++ writtenLabel l

/-- The written form of a response: `-> OK`, `-> OK <result>` or `-> <STATUS>` (R61). -/
def writtenResponse (r : Response) : String := "-> " ++ writtenStatus r.status ++ writtenResult r.result

end Sys2Proof.Machine
end

