-- ==== Sys2Proof/Tests/Slice0.lean ====
section
/-!
SUPPORT. Tests of the model on values from outside it, and a witness for every statement that has hypotheses. The
expected values are those of spec/95_test_vectors.md (the vector is named in the docstring) or are written out from the
rule named there.
-/
namespace Sys2Proof.Tests
open Sys2Proof Sys2Proof.Machine

-- One theorem after the other: each thread of a parallel elaboration holds a stack of its own.
set_option Elab.async false

/-! ## Helpers -/

/-- A state whose slot holds `p`, with nothing presented and nothing answered. -/
def holding (p : Packet) : State := { pkt := p, valid := true, pending := [], resp := none }

/-- The packet `H` of 95_test_vectors. -/
def pktH : Packet := ⟨0x0001, 0x0002, 0x10, 0x40, 0x0005, 0xD170, [0x68, 0x65, 0x6C, 0x6C, 0x6F]⟩

/-- The state `H` of 95_test_vectors. -/
def stH : State := holding pktH

/-- The packet of K2. -/
def pktK2 : Packet := ⟨0x0064, 0x0000, 0x02, 0xFF, 0x03F0, 0xCDAB, []⟩

/-- The packet of K1. -/
def pktK1 : Packet := ⟨0x0064, 0x0000, 0x00, 0xFF, 0x03F0, 0x46EB, []⟩

/-- `n` bytes of zero. -/
def zeros (n : Nat) : List Byte := List.replicate n 0x00

/-- The packet an outcome leaves in the slot, where there is one. -/
def leaves (o : Out) : Option Packet :=
  match o with
  | .next t => if t.valid then some t.pkt else none
  | .fault _ => none
  | .refused _ => none

/-- The response an outcome gives. -/
def answers (o : Out) : Option Response :=
  match o with
  | .next t => t.resp
  | .fault _ => none
  | .refused _ => none

/-! ## WellFormed: the one check refuses a sequence beyond the range of format BYTES -/

theorem zeros_fitsPort (n : Nat) : fitsPort (zeros n) = decide (n ≤ 65535) := by
  simp [fitsPort, byteSeqMax, zeros]

theorem test_decode_operand_65535 : (Instr.decodeWire (zeros 65535)).wellFormed = true :=
  (zeros_fitsPort 65535).trans (by decide)

theorem test_decode_operand_65536_refused : (Instr.decodeWire (zeros 65536)).wellFormed = false :=
  (zeros_fitsPort 65536).trans (by decide)

theorem test_wrPay_operand_65536_refused : (Instr.wrPay (zeros 65536)).wellFormed = false :=
  (zeros_fitsPort 65536).trans (by decide)

theorem test_setPay_operand_65536_refused : (Instr.setPay (zeros 65536)).wellFormed = false :=
  (zeros_fitsPort 65536).trans (by decide)

/-- A request with a sequence too large, of any length (65536 bytes among them), is answered by OVERSIZE (R145): CONSTRUCT
and DECODE whatever VALID is, WR.PAY with a packet. -/
theorem test_long_request_oversize (s : State) (l : List Byte) (h : 1018 < l.length) :
    answers (step { s with pending := [.present { Request.blank 0x02 with data := l }] }) =
      some ⟨.oversize, .none⟩ ∧
    answers (step { s with pending := [.present { Request.blank 0x01 with present := 0b01000, pay := l }] }) =
      some ⟨.oversize, .none⟩ ∧
    (s.valid = true → answers (step { s with pending := [.present { Request.blank 0x56 with data := l }] }) =
      some ⟨.oversize, .none⟩) := by
  refine ⟨?_, ?_, fun hv => ?_⟩
  · rw [step_present rfl, execRequest_instr (i := .decodeWire l) rfl, exec_decodeWire,
      (execDecode_next _ _ _).mpr (.inr (.inl ⟨h, rfl⟩))]
    rfl
  · rw [step_present rfl, execRequest_instr (i := .construct 0 0 none none none (some l) none)
      (by simp [decode, decodeConstruct, Request.blank]), exec_construct,
      (execConstruct_next _ _ _ _ _ (some l) _ _ _).mpr (.inr ⟨show 1008 < l.length by omega, rfl⟩)]
    rfl
  · rw [step_present rfl, execRequest_instr (i := .wrPay l) rfl, exec_wrPay,
      mutatePay_oversize (s := { s with pending := [] }) hv (by omega)]
    rfl

/-! ## Decode: every code with operands, written out from 30_encoding R54 and R55 -/

/-- The thirty codes of R55 in the table's order, each with the operation it stands for when its ports are zero. -/
theorem test_table_serdes_csum_flags :
    decodeTableWord 8 0x01 = some (.construct 0 0 none none none none none) ∧
    decodeTableWord 8 0x02 = some (.decodeWire []) ∧ decodeTableWord 8 0x03 = some .encodeWire ∧
    decodeTableWord 8 0x10 = some .csumCompute ∧ decodeTableWord 8 0x11 = some .csumUpdate ∧
    decodeTableWord 8 0x12 = some .csumVerify ∧ decodeTableWord 8 0x20 = some (.flagsSet false false false) ∧
    decodeTableWord 8 0x21 = some .classify ∧ decodeTableWord 8 0x30 = some (.seqAdv 0) ∧
    decodeTableWord 8 0x31 = some (.ackAdv 0) := by decide

theorem test_table_reads :
    decodeTableWord 8 0x40 = some .rdSeq ∧ decodeTableWord 8 0x41 = some .rdAck ∧
    decodeTableWord 8 0x42 = some .rdFlags ∧ decodeTableWord 8 0x43 = some .rdWin ∧
    decodeTableWord 8 0x44 = some .rdDlen ∧ decodeTableWord 8 0x45 = some .rdCsum ∧
    decodeTableWord 8 0x46 = some .rdPay := by decide

theorem test_table_writes :
    decodeTableWord 8 0x50 = some (.wrSeq 0) ∧ decodeTableWord 8 0x51 = some (.wrAck 0) ∧
    decodeTableWord 8 0x52 = some (.wrFlags 0) ∧ decodeTableWord 8 0x53 = some (.wrWin 0) ∧
    decodeTableWord 8 0x54 = some (.wrDlen 0) ∧ decodeTableWord 8 0x55 = some (.wrCsum 0) ∧
    decodeTableWord 8 0x56 = some (.wrPay []) ∧ decodeTableWord 8 0x58 = some .payClear := by decide

theorem test_table_sets :
    decodeTableWord 8 0x60 = some (.setSeq 0) ∧ decodeTableWord 8 0x61 = some (.setAck 0) ∧
    decodeTableWord 8 0x62 = some (.setFlags 0) ∧ decodeTableWord 8 0x63 = some (.setWin 0) ∧
    decodeTableWord 8 0x66 = some (.setPay []) := by decide

/-- E8 and program P4: unassigned codes. -/
theorem test_unassigned_codes :
    ([0x00, 0x04, 0x13, 0x47, 0x57, 0x59, 0x64, 0x65, 0x67, 0x99, 0xFF] : List Byte).map
      (fun c => decode (Request.blank c)) = List.replicate 11 .badOp := by decide

/-- The operand ports of the formats U16, U8, B3, BYTES. -/
theorem test_decode_operands :
    decode { Request.blank 0x30 with v16 := 0xFFFE } = .instr (.seqAdv 0xFFFE) ∧
    decode { Request.blank 0x31 with v16 := 0x0065 } = .instr (.ackAdv 0x0065) ∧
    decode { Request.blank 0x50 with v16 := 0x0102 } = .instr (.wrSeq 0x0102) ∧
    decode { Request.blank 0x51 with v16 := 0x0200 } = .instr (.wrAck 0x0200) ∧
    decode { Request.blank 0x54 with v16 := 0x03F0 } = .instr (.wrDlen 0x03F0) ∧
    decode { Request.blank 0x55 with v16 := 0xBEEF } = .instr (.wrCsum 0xBEEF) ∧
    decode { Request.blank 0x60 with v16 := 0x0102 } = .instr (.setSeq 0x0102) ∧
    decode { Request.blank 0x61 with v16 := 0xFFFF } = .instr (.setAck 0xFFFF) ∧
    decode { Request.blank 0x52 with v8 := 0x80 } = .instr (.wrFlags 0x80) ∧
    decode { Request.blank 0x53 with v8 := 0xFF } = .instr (.wrWin 0xFF) ∧
    decode { Request.blank 0x62 with v8 := 0x10 } = .instr (.setFlags 0x10) ∧
    decode { Request.blank 0x63 with v8 := 0x20 } = .instr (.setWin 0x20) ∧
    decode { Request.blank 0x02 with data := [0x00, 0x64] } = .instr (.decodeWire [0x00, 0x64]) ∧
    decode { Request.blank 0x56 with data := [0x68, 0x69] } = .instr (.wrPay [0x68, 0x69]) ∧
    decode { Request.blank 0x66 with data := [0x68, 0x69] } = .instr (.setPay [0x68, 0x69]) := by decide

/-- P1 line 2 and P2 line 11: `afs[2]` is ack, `afs[1]` syn, `afs[0]` fin. -/
theorem test_decode_afs :
    decode { Request.blank 0x20 with afs := 0b010 } = .instr (.flagsSet false true false) ∧
    decode { Request.blank 0x20 with afs := 0b100 } = .instr (.flagsSet true false false) ∧
    decode { Request.blank 0x20 with afs := 0b001 } = .instr (.flagsSet false false true) := by decide

/-- P3 line 1 (present = 0b01111, the csum port ignored), and each present bit alone. -/
theorem test_decode_present :
    decode { Request.blank 0x01 with
      seq := 0xFFFA, present := 0b01111, flags := 0x10, window := 0x08, dlen := 0x0003, pay := [0x61, 0x62, 0x63],
      csum := 0x7777 } =
      .instr (.construct 0xFFFA 0 (some 0x10) (some 0x08) (some 0x0003) (some [0x61, 0x62, 0x63]) none) ∧
    decode { Request.blank 0x01 with ack := 9, present := 0b00001, flags := 2, window := 3, dlen := 4, csum := 5 } =
      .instr (.construct 0 9 (some 2) none none none none) ∧
    decode { Request.blank 0x01 with present := 0b00010, flags := 2, window := 3, dlen := 4, csum := 5 } =
      .instr (.construct 0 0 none (some 3) none none none) ∧
    decode { Request.blank 0x01 with present := 0b00100, flags := 2, window := 3, dlen := 4, csum := 5 } =
      .instr (.construct 0 0 none none (some 4) none none) ∧
    decode { Request.blank 0x01 with present := 0b01000, flags := 2, window := 3, dlen := 4, csum := 5 } =
      .instr (.construct 0 0 none none none (some []) none) ∧
    decode { Request.blank 0x01 with present := 0b10000, flags := 2, window := 3, dlen := 4, csum := 5 } =
      .instr (.construct 0 0 none none none none (some 5)) := by decide

/-- R110: RD, WR and SET of field `f` have the codes `0x40 + f`, `0x50 + f`, `0x60 + f`. -/
theorem test_field_selectors :
    Instr.rdWin.opcode = 0x40 + Field.win.selector ∧ Instr.rdPay.opcode = 0x40 + Field.pay.selector ∧
    (Instr.wrCsum 0).opcode = 0x50 + Field.csum.selector ∧ (Instr.wrDlen 0).opcode = 0x50 + Field.dlen.selector ∧
    (Instr.setFlags 0).opcode = 0x60 + Field.flags.selector ∧ (Instr.setAck 0).opcode = 0x60 + Field.ack.selector ∧
    (Instr.setSeq 0).opcode = 0x60 + Field.seq.selector := by decide

/-- The table of R55 has thirty rows with thirty different codes. -/
theorem test_table_has_thirty_codes : opTable.length = 30 ∧ (opTable.map OpRow.code).Nodup := by decide

/-- A word of the table runs as the first operation after reset. -/
theorem test_first_operation_after_reset :
    answers (step (State.reset.withFetchWord 8 0x40)) = some ⟨.noPacket, .none⟩ ∧
    leaves (step (State.reset.withFetchWord 8 0x01)) = some ⟨0, 0, 0x00, 0xFF, 0x03F0, 0x2221, []⟩ := by
  decide +kernel

/-! ## The checksum generator and the wire format -/

/-- C1, C4, C8, C10, C12, C15, C16, C17 of 95_test_vectors. -/
theorem test_crc_vectors :
    crc16 [] = 0x0000 ∧ crc16 [0x01] = 0x1021 ∧ crc16 [0xFF] = 0x1EF0 ∧ crc16 [0x41] = 0x58E5 ∧
    crc16 [0x01, 0x00] = 0x3331 ∧ crc16 [0x31, 0x32] = 0x20B5 ∧
    crc16 [0x31, 0x32, 0x33, 0x34, 0x35, 0x36, 0x37, 0x38, 0x39] = 0x31C3 ∧
    crc16 [0x68, 0x65, 0x6C, 0x6C, 0x6F] = 0xC362 := by decide +kernel

/-- The serial and the table-driven forms on C16. -/
theorem test_crc_forms :
    crc16Serial [0x31, 0x32, 0x33, 0x34, 0x35, 0x36, 0x37, 0x38, 0x39] = 0x31C3 ∧
    crc16Table [0x31, 0x32, 0x33, 0x34, 0x35, 0x36, 0x37, 0x38, 0x39] = 0x31C3 := by decide +kernel

/-- W5 puts a distinct byte at every offset. -/
theorem test_wire_image_W5 :
    wireImage ⟨0x1234, 0x5678, 0x11, 0x9A, 0xBCDE, 0x81E4, []⟩ =
      [0x12, 0x34, 0x56, 0x78, 0x11, 0x9A, 0xBC, 0xDE, 0x81, 0xE4] ∧
    computeChecksum ⟨0x1234, 0x5678, 0x11, 0x9A, 0xBCDE, 0, []⟩ = 0x81E4 := by decide +kernel

/-- W9 with a payload, read back. -/
theorem test_parse_wire_W9 :
    parseWire [0x12, 0x34, 0xAB, 0xCD, 0x12, 0x7F, 0x00, 0x03, 0x5E, 0xD3, 0xDE, 0xAD, 0xBF] =
      ⟨0x1234, 0xABCD, 0x12, 0x7F, 0x0003, 0x5ED3, [0xDE, 0xAD, 0xBF]⟩ ∧
    checksumValid ⟨0x1234, 0xABCD, 0x12, 0x7F, 0x0003, 0x5ED3, [0xDE, 0xAD, 0xBF]⟩ = true := by decide +kernel

/-! ## The operations, at most two tests each -/

/-- K1: the defaults; K2 from H: flags given, the packet before forgotten. -/
theorem test_construct_defaults :
    leaves (exec (.construct 100 0 none none none none none) State.reset) = some pktK1 ∧
    leaves (exec (.construct 100 0 (some 0x02) none none none none) stH) = some pktK2 := by decide +kernel

/-- K6: a non-zero checksum verbatim; K8: zero means compute; K10: 1009 bytes of payload. -/
theorem test_construct_checksum_rule :
    leaves (exec (.construct 1 2 (some 0x10) (some 0x40) (some 5) (some pktH.pay) (some 0xBEEF)) State.reset) =
      some { pktH with csum := 0xBEEF } ∧
    leaves (exec (.construct 1 2 (some 0x10) (some 0x40) (some 5) (some pktH.pay) (some 0)) State.reset) =
      some pktH ∧
    answers (exec (.construct 1 1 none none none (some (zeros 1009)) none) stH) = some ⟨.oversize, .none⟩ ∧
    leaves (exec (.construct 1 1 none none none (some (zeros 1009)) none) stH) = some pktH := by decide +kernel

/-- D2: the label of a data packet that acknowledges; D6: a zero checksum verbatim. -/
theorem test_decode_loads :
    answers (exec (.decodeWire [0x00, 0x01, 0x00, 0x02, 0x10, 0x40, 0x00, 0x05, 0xD1, 0x70, 0x68, 0x65, 0x6C, 0x6C,
      0x6F]) State.reset) = some ⟨.ok, .label .ack⟩ ∧
    leaves (exec (.decodeWire [0x00, 0x64, 0x00, 0x00, 0x02, 0xFF, 0x03, 0xF0, 0x00, 0x00]) stH) =
      some { pktK2 with csum := 0 } := by decide +kernel

/-- E2 from H, E4, E6. -/
theorem test_decode_lengths :
    answers (exec (.decodeWire (zeros 9)) stH) = some ⟨.truncatedHeader, .none⟩ ∧
    leaves (exec (.decodeWire (zeros 9)) stH) = some pktH ∧
    answers (exec (.decodeWire (zeros 10)) State.reset) = some ⟨.ok, .label .unclassified⟩ ∧
    answers (exec (.decodeWire (zeros 1018)) State.reset) = some ⟨.ok, .label .data⟩ ∧
    answers (exec (.decodeWire (zeros 1019)) State.reset) = some ⟨.oversize, .none⟩ := by decide +kernel

/-- N2, and N3 with the stale checksum as stored. -/
theorem test_encode :
    answers (exec .encodeWire stH) =
      some ⟨.ok, .bytes [0x00, 0x01, 0x00, 0x02, 0x10, 0x40, 0x00, 0x05, 0xD1, 0x70, 0x68, 0x65, 0x6C, 0x6C, 0x6F]⟩ ∧
    answers (exec .encodeWire (holding { pktH with csum := 0xBEEF })) =
      some ⟨.ok, .bytes [0x00, 0x01, 0x00, 0x02, 0x10, 0x40, 0x00, 0x05, 0xBE, 0xEF, 0x68, 0x65, 0x6C, 0x6C, 0x6F]⟩ := by
  decide +kernel

/-- M4. -/
theorem test_csumCompute :
    answers (exec .csumCompute (holding { pktK2 with seq := 0x0065 })) = some ⟨.ok, .half 0x2688⟩ := by decide +kernel

/-- M2. -/
theorem test_csumUpdate : leaves (exec .csumUpdate (holding { pktK2 with csum := 0x1234 })) = some pktK2 := by
  decide +kernel

/-- M5 and M3. -/
theorem test_csumVerify :
    answers (exec .csumVerify (holding pktK2)) = some ⟨.ok, .bit true⟩ ∧
    answers (exec .csumVerify (holding { pktK2 with csum := 0xCD2B })) = some ⟨.ok, .bit false⟩ := by decide +kernel

/-- F10: SYN cleared, not kept; F11: the reserved bits kept. -/
theorem test_flagsSet :
    leaves (exec (.flagsSet true false false) (holding pktK2)) = some { pktK2 with flags := 0x10, csum := 0x5C6F } ∧
    leaves (exec (.flagsSet true false false) (holding { pktK2 with flags := 0xEE, csum := 0x4D70 })) =
      some { pktK2 with flags := 0xFC, csum := 0xDCB4 } := by decide +kernel

/-- L1 to L5 (source) and L6, L7. -/
theorem test_classify_source :
    classify 0x02 0 = .syn ∧ classify 0x10 0 = .ack ∧ classify 0x01 0 = .fin ∧ classify 0x12 0 = .synAck ∧
    classify 0x11 0 = .finAck ∧ classify 0x00 1 = .data ∧ classify 0x00 0 = .unclassified := by decide

/-- L8 to L14, through the operation for L9. -/
theorem test_classify_derived :
    classify 0x02 5 = .syn ∧ classify 0x82 1 = .data ∧ classify 0x03 0 = .unclassified ∧ classify 0x13 2 = .data ∧
    classify 0xFF 0 = .unclassified ∧
    answers (exec .classify (holding { pktK2 with flags := 0x82 })) = some ⟨.ok, .label .unclassified⟩ := by decide

/-- A4 to A12 but A8 in the operations below. -/
theorem test_advance :
    advance 65533 1 = 65534 ∧ advance 65534 1 = 0 ∧ advance 65534 2 = 1 ∧ advance 5 65534 = 4 ∧ advance 5 65535 = 5 ∧
    advance 65535 65535 = 0 ∧ advance 65535 0 = 0 ∧ advance 65535 1 = 1 ∧ advance 40000 40000 = 14465 := by decide

/-- A20. -/
theorem test_seqAdv :
    leaves (exec (.seqAdv 65534) (holding { pktK1 with seq := 5, csum := 0x55ED })) =
      some { pktK1 with seq := 4, csum := 0xBECE } := by decide +kernel

/-- A23. -/
theorem test_ackAdv :
    leaves (exec (.ackAdv 101) (holding { pktK2 with seq := 0x0065, csum := 0x2688 })) =
      some { pktK2 with seq := 0x0065, ack := 0x0065, csum := 0xEC35 } := by decide +kernel

/-- X1. -/
theorem test_reads :
    answers (exec .rdSeq stH) = some ⟨.ok, .half 0x0001⟩ ∧ answers (exec .rdAck stH) = some ⟨.ok, .half 0x0002⟩ ∧
    answers (exec .rdFlags stH) = some ⟨.ok, .byte 0x10⟩ ∧ answers (exec .rdWin stH) = some ⟨.ok, .byte 0x40⟩ ∧
    answers (exec .rdDlen stH) = some ⟨.ok, .half 0x0005⟩ ∧ answers (exec .rdCsum stH) = some ⟨.ok, .half 0xD170⟩ ∧
    answers (exec .rdPay stH) = some ⟨.ok, .bytes [0x68, 0x65, 0x6C, 0x6C, 0x6F]⟩ := by decide

/-- X2 to X8 before their updates: the checksum is stale. -/
theorem test_writes :
    leaves (exec (.wrSeq 0x0102) stH) = some { pktH with seq := 0x0102 } ∧
    leaves (exec (.wrAck 7) stH) = some { pktH with ack := 0x0007 } ∧
    leaves (exec (.wrFlags 0x80) stH) = some { pktH with flags := 0x80 } ∧
    leaves (exec (.wrWin 0) stH) = some { pktH with window := 0x00 } ∧
    leaves (exec (.wrDlen 0) stH) = some { pktH with dlen := 0x0000 } ∧
    leaves (exec (.wrCsum 0) stH) = some { pktH with csum := 0x0000 } ∧
    leaves (exec (.wrPay [0x68, 0x69]) stH) = some { pktH with pay := [0x68, 0x69] } := by decide

/-- X2 to X7 after CSUM.UPDATE. -/
theorem test_writes_then_update :
    leaves (execAll [.wrSeq 0x0102, .csumUpdate] stH) = some { pktH with seq := 0x0102, csum := 0xF22F } ∧
    leaves (execAll [.wrAck 7, .csumUpdate] stH) = some { pktH with ack := 0x0007, csum := 0xDFD1 } ∧
    leaves (execAll [.wrFlags 0x80, .csumUpdate] stH) = some { pktH with flags := 0x80, csum := 0x0DE7 } ∧
    leaves (execAll [.wrWin 0, .csumUpdate] stH) = some { pktH with window := 0x00, csum := 0xA36A } ∧
    leaves (execAll [.wrDlen 0, .csumUpdate] stH) = some { pktH with dlen := 0x0000, csum := 0x99CE } ∧
    leaves (execAll [.wrPay [0x68, 0x69], .csumUpdate] stH) =
      some { pktH with pay := [0x68, 0x69], csum := 0xA22D } := by decide +kernel

/-- X18 and E7: NO_PACKET comes before OVERSIZE. -/
theorem test_payload_lengths :
    answers (exec (.wrPay (zeros 1009)) stH) = some ⟨.oversize, .none⟩ ∧
    leaves (exec (.setPay (zeros 1009)) stH) = some pktH ∧
    answers (exec (.wrPay (zeros 1009)) State.reset) = some ⟨.noPacket, .none⟩ ∧
    (leaves (exec (.wrPay (zeros 1008)) stH)).map Packet.plen = some 1008 := by decide +kernel

/-- X15. -/
theorem test_payClear : leaves (exec .payClear stH) = some { pktH with pay := [] } := by decide

/-- X9, X10, X11. -/
theorem test_sets :
    leaves (exec (.setSeq 0x0102) stH) = some { pktH with seq := 0x0102, csum := 0xF22F } ∧
    leaves (exec (.setFlags 0x00) stH) = some { pktH with flags := 0x00, csum := 0x844D } ∧
    leaves (exec (.setAck 0xFFFF) (holding { pktH with flags := 0x00, csum := 0x844D })) =
      some { pktH with flags := 0x00, ack := 0xFFFF, csum := 0xAAAB } := by decide +kernel

/-- X12, X13, X14: the length is refreshed from the actual payload. -/
theorem test_sets_refresh_length :
    leaves (exec (.setPay [0x68, 0x69]) stH) =
      some { pktH with pay := [0x68, 0x69], dlen := 0x0002, csum := 0xC5F9 } ∧
    leaves (execAll [.setPay [0x68, 0x69], .setPay []] stH) =
      some { pktH with pay := [], dlen := 0x0000, csum := 0x802C } ∧
    leaves (execAll [.construct 1 2 none none none none none, .setWin 0x20] State.reset) =
      some ⟨1, 2, 0x00, 0x20, 0x0000, 0x8374, []⟩ := by decide +kernel

/-- X19: any of them without a packet. -/
theorem test_no_packet :
    answers (exec .rdPay State.reset) = some ⟨.noPacket, .none⟩ ∧
    answers (exec .payClear State.reset) = some ⟨.noPacket, .none⟩ ∧
    answers (exec (.setPay (zeros 1009)) State.reset) = some ⟨.noPacket, .none⟩ := by decide +kernel

/-- R61: the written forms of two operations of 95_test_vectors and of two responses; numbers in decimal (log 11). -/
theorem test_written :
    written (.construct 100 0 none none none none none) = "CONSTRUCT seq=100 ack=0" ∧
    written (.flagsSet true false false) = "FLAGS.SET ack=1 syn=0 fin=0" ∧
    written (.decodeWire [0x00, 0x64]) = "DECODE 00 64" ∧ written (.setPay []) = "SET.PAY []" ∧
    writtenResponse ⟨.ok, .label .synAck⟩ = "-> OK SYN_ACK" ∧
    writtenResponse ⟨.truncatedHeader, .none⟩ = "-> TRUNCATED_HEADER" := by decide +kernel

/-! ## Witnesses: the hypotheses of each statement are met -/

theorem next_of_answers {o : Out} {r : Response} (h : answers o = some r) : ∃ t, o = .next t ∧ t.resp = some r := by
  cases o with
  | next t => exact ⟨t, rfl, h⟩
  | fault f => cases h
  | refused f => cases h

theorem zeros_fits (n : Nat) (h : n ≤ 1008) : (FieldSet.pay (zeros n)).fits = true := by
  simp [FieldSet.fits, zeros, params, h]

theorem zeros_length (n : Nat) : (zeros n).length = n := List.length_replicate

/-- The codes of R55, as `UnassignedCodesAnswerBadOp` lists them. -/
def assignedCodes : List Byte :=
  [0x01, 0x02, 0x03, 0x10, 0x11, 0x12, 0x20, 0x21, 0x30, 0x31, 0x40, 0x41, 0x42, 0x43, 0x44, 0x45, 0x46, 0x50, 0x51,
    0x52, 0x53, 0x54, 0x55, 0x56, 0x58, 0x60, 0x61, 0x62, 0x63, 0x66]

/-- Both ends of the range of the BYTES port. -/
theorem witness_DecodedOperationsFitThePorts :
    decode { Request.blank 0x66 with data := [] } = .instr (.setPay []) ∧ ([] : List Byte).length ≤ 65535 ∧
    decode { Request.blank 0x66 with data := zeros 65535 } = .instr (.setPay (zeros 65535)) ∧
    (zeros 65535).length ≤ 65535 :=
  ⟨rfl, by decide, rfl, by rw [zeros_length]⟩

/-- Requests that differ on ports they do not use: format N, U8, CONS with one operand present, and an unassigned
code. -/
theorem witness_IgnoredPortsHaveNoInfluence :
    (Request.blank 0x40).sameUsedPorts { Request.blank 0x40 with v16 := 1, data := [2] } ∧
    (Request.blank 0x53).sameUsedPorts { Request.blank 0x53 with v16 := 1 } ∧
    ({ Request.blank 0x01 with present := 0b00010 } : Request).sameUsedPorts
      { Request.blank 0x01 with present := 0b00010, flags := 7, pay := [1], csum := 3, v8 := 9 } ∧
    (Request.blank 0x64).sameUsedPorts { Request.blank 0x64 with v8 := 1 } := by
  refine ⟨⟨rfl, trivial⟩, ⟨rfl, rfl⟩, ⟨rfl, rfl, rfl, rfl, ?_, ?_, ?_, ?_, ?_⟩, ⟨rfl, trivial⟩⟩ <;> decide

theorem witness_UnassignedCodesAnswerBadOp :
    ({ stH with pending := [.present (Request.blank 0x64)] } : State).pending = .present (Request.blank 0x64) :: [] ∧
    (Request.blank 0x64).op ∉ assignedCodes ∧ (Request.blank 0x65).op ∉ assignedCodes ∧
    (Request.blank 0x63).op ∈ assignedCodes ∧ (Request.blank 0x66).op ∈ assignedCodes := by decide

theorem witness_StepRunsTheDecodedOperation :
    ({ stH with pending := [.present (Request.blank 0x40), .reset] } : State).pending =
      .present (Request.blank 0x40) :: [.reset] ∧
    decode (Request.blank 0x40) = .instr .rdSeq := ⟨rfl, rfl⟩

/-- A request for the second clause; the third has no hypotheses. -/
theorem witness_EveryOperationAnswers :
    ({ stH with pending := [.present (Request.blank 0x64)] } : State).pending = .present (Request.blank 0x64) :: [] := rfl

theorem witness_ResetInputGivesTheResetState :
    ({ stH with pending := [.reset, .present (Request.blank 0x40)] } : State).pending =
      .reset :: [.present (Request.blank 0x40)] := rfl

theorem witness_ResetValuesAreUnobservable :
    State.reset.valid = false ∧ ({ State.reset with pkt := pktH } : State).valid = false ∧
    State.reset.pending = ({ State.reset with pkt := pktH } : State).pending ∧
    State.reset.resp = ({ State.reset with pkt := pktH } : State).resp ∧
    State.reset ≠ ({ State.reset with pkt := pktH } : State) := by decide

/-- Each of the three clauses on steps. -/
theorem witness_ValidLifecycle :
    step { stH with pending := [.reset] } = .next State.reset ∧ stH.valid = true ∧ State.reset.valid = false ∧
    (∃ t, step { State.reset with pending := [.present { Request.blank 0x02 with data := zeros 10 }] } = .next t ∧
      State.reset.valid = false ∧ t.valid = true) ∧
    loads (.decodeWire (zeros 10)) = true ∧
    (∃ t, exec (.decodeWire (zeros 10)) State.reset = .next t ∧ t.resp = some ⟨.ok, .label .unclassified⟩) :=
  ⟨rfl, rfl, rfl, ⟨_, rfl, rfl, rfl⟩, rfl, _, rfl, rfl⟩

theorem witness_WithoutAPacketNothingHappens :
    State.reset.valid = false ∧
    (∀ seq ack flags window dlen pay csum, Instr.rdSeq ≠ .construct seq ack flags window dlen pay csum) ∧
    (∀ raw, Instr.rdSeq ≠ .decodeWire raw) := ⟨rfl, nofun, nofun⟩

/-- Both loaders, DECODE at both ends of its range. -/
theorem witness_LoadersForgetThePreviousPacket :
    loads (.construct 1 2 none none none none none) = true ∧ loads (.decodeWire (zeros 10)) = true ∧
    (∃ t, exec (.construct 1 2 none none none none none) stH = .next t ∧ t.resp = some ⟨.ok, .none⟩) ∧
    (∃ t, exec (.decodeWire (zeros 10)) stH = .next t ∧ t.resp = some ⟨.ok, .label .unclassified⟩) ∧
    (∃ t, exec (.decodeWire (zeros 1018)) stH = .next t ∧ t.resp = some ⟨.ok, .label .data⟩) :=
  ⟨rfl, rfl, next_of_answers (by decide +kernel), next_of_answers (by decide +kernel),
    next_of_answers (by decide +kernel)⟩

/-- A step from and to the longest payload. -/
theorem witness_StepKeepsThePayloadBound :
    ∃ t, (zeros 1008).length ≤ 1008 ∧ (holding { pktH with pay := zeros 1008 }).pkt.pay.length ≤ 1008 ∧
      step { holding { pktH with pay := zeros 1008 } with
        pending := [.present { Request.blank 0x50 with v16 := 9 }] } = .next t ∧ t.pkt.pay.length = 1008 := by
  refine ⟨_, ?_, ?_, rfl, ?_⟩
  · rw [zeros_length]
  · show (zeros 1008).length ≤ 1008
    rw [zeros_length]
  · exact zeros_length 1008

/-- The four causes of an error status, at the least length that is refused. -/
theorem witness_ErrorsChangeNothing :
    (∃ t, exec .rdSeq State.reset = .next t ∧ t.resp = some ⟨.noPacket, .none⟩) ∧
    (∃ t, exec (.wrPay (zeros 1009)) stH = .next t ∧ t.resp = some ⟨.oversize, .none⟩) ∧
    (∃ t, exec (.decodeWire (zeros 9)) stH = .next t ∧ t.resp = some ⟨.truncatedHeader, .none⟩) ∧
    (∃ t, exec (.decodeWire (zeros 1019)) stH = .next t ∧ t.resp = some ⟨.oversize, .none⟩) ∧
    (∃ t, exec (.construct 1 1 none none none (some (zeros 1009)) none) stH = .next t ∧
      t.resp = some ⟨.oversize, .none⟩) :=
  ⟨next_of_answers (by decide +kernel), next_of_answers (by decide +kernel), next_of_answers (by decide +kernel),
    next_of_answers (by decide +kernel), next_of_answers (by decide +kernel)⟩

/-- Both sides of every bound in the statement. -/
theorem witness_StatusesHaveTheirCauses :
    (∃ t, exec (.decodeWire (zeros 9)) stH = .next t ∧ t.resp = some ⟨.truncatedHeader, .none⟩) ∧
    (∃ t, exec (.decodeWire (zeros 10)) stH = .next t ∧ t.resp = some ⟨.ok, .label .unclassified⟩) ∧
    (∃ t, exec (.decodeWire (zeros 1018)) stH = .next t ∧ t.resp = some ⟨.ok, .label .data⟩) ∧
    (∃ t, exec (.decodeWire (zeros 1019)) stH = .next t ∧ t.resp = some ⟨.oversize, .none⟩) ∧
    (∃ t, exec (.construct 1 1 none none none (some (zeros 1008)) (some 7)) stH = .next t ∧
      t.resp = some ⟨.ok, .none⟩) ∧
    (∃ t, exec (.construct 1 1 none none none (some (zeros 1009)) (some 7)) stH = .next t ∧
      t.resp = some ⟨.oversize, .none⟩) ∧
    (∃ t, exec (.wrPay (zeros 1008)) stH = .next t ∧ t.resp = some ⟨.ok, .none⟩) ∧
    (∃ t, exec (.setPay (zeros 1009)) stH = .next t ∧ t.resp = some ⟨.oversize, .none⟩) ∧
    (∃ t, exec (.setPay (zeros 1009)) State.reset = .next t ∧ t.resp = some ⟨.noPacket, .none⟩) ∧
    (∃ t, step { stH with pending := [.present (Request.blank 0x64)] } = .next t ∧
      t.resp = some ⟨.badOp, .none⟩) ∧
    (∃ t, step { stH with pending := [.present (Request.blank 0x63)] } = .next t ∧ t.resp = some ⟨.ok, .none⟩) :=
  ⟨next_of_answers (by decide +kernel), next_of_answers (by decide +kernel),
    next_of_answers (by decide +kernel), next_of_answers (by decide +kernel), next_of_answers (by decide +kernel),
    next_of_answers (by decide +kernel), next_of_answers (by decide +kernel), next_of_answers (by decide +kernel),
    next_of_answers (by decide +kernel), next_of_answers (by decide +kernel), next_of_answers (by decide +kernel)⟩

/-- One operation of each kind of result. -/
theorem witness_ResultsHaveTheirKind :
    (∃ t, exec (.wrFlags 0x80) stH = .next t ∧ t.resp = some ⟨.ok, .none⟩) ∧
    (∃ t, exec .csumVerify stH = .next t ∧ t.resp = some ⟨.ok, .bit true⟩) ∧
    (∃ t, exec .rdFlags stH = .next t ∧ t.resp = some ⟨.ok, .byte 0x10⟩) ∧
    (∃ t, exec .rdSeq stH = .next t ∧ t.resp = some ⟨.ok, .half 1⟩) ∧
    (∃ t, exec .rdPay stH = .next t ∧ t.resp = some ⟨.ok, .bytes pktH.pay⟩) ∧
    (∃ t, exec .classify stH = .next t ∧ t.resp = some ⟨.ok, .label .ack⟩) :=
  ⟨next_of_answers (by decide +kernel), next_of_answers (by decide +kernel), next_of_answers (by decide +kernel),
    next_of_answers (by decide +kernel), next_of_answers (by decide +kernel), next_of_answers (by decide +kernel)⟩

/-- An operation for each element it does not write, and one that is no loader. -/
theorem witness_AccessMatrixFrame :
    (∃ t, exec (.flagsSet true false false) stH = .next t) ∧
    Field.seq ∉ writes (.flagsSet true false false) ∧ Field.ack ∉ writes (.flagsSet true false false) ∧
    Field.win ∉ writes (.flagsSet true false false) ∧ Field.dlen ∉ writes (.flagsSet true false false) ∧
    Field.pay ∉ writes (.flagsSet true false false) ∧ loads (.flagsSet true false false) = false ∧
    (∃ t, exec (.wrWin 1) stH = .next t) ∧ Field.flags ∉ writes (.wrWin 1) ∧ Field.csum ∉ writes (.wrWin 1) :=
  ⟨⟨_, rfl⟩, by decide, by decide, by decide, by decide, by decide, rfl, ⟨_, rfl⟩, by decide, by decide⟩

theorem witness_ReadsHaveNoSideEffect :
    Instr.encodeWire ∈ [Instr.encodeWire, .csumCompute, .csumVerify, .classify, .rdSeq, .rdAck, .rdFlags, .rdWin,
      .rdDlen, .rdCsum, .rdPay] := by decide

theorem witness_ReadOnlyOperationsCommute : readOnly .classify = true ∧ readOnly .rdPay = true := ⟨rfl, rfl⟩

/-- An operation with a byte result and one with a label, under two declared lengths. -/
theorem witness_DeclaredLengthDecidesNoLength :
    (∃ t r, exec .encodeWire stH = .next t ∧ t.resp = some r ∧ r.result = .bytes (wireImage pktH)) ∧
    (∃ u q, exec .encodeWire { stH with pkt := { stH.pkt with dlen := 0xFFFF } } = .next u ∧ u.resp = some q) ∧
    (∃ t r, exec .classify stH = .next t ∧ t.resp = some r ∧ r.result = .label .ack) ∧
    (∃ u q, exec .classify { stH with pkt := { stH.pkt with dlen := 0xFFFF } } = .next u ∧ u.resp = some q) :=
  ⟨⟨_, _, rfl, rfl, rfl⟩, ⟨_, _, rfl, rfl⟩, ⟨_, _, rfl, rfl, rfl⟩, ⟨_, _, rfl, rfl⟩⟩

theorem witness_StoredChecksumIsSeenOnlyWhereRead :
    Instr.csumUpdate ≠ .encodeWire ∧ Instr.csumUpdate ≠ .csumVerify ∧ Instr.csumUpdate ≠ .rdCsum ∧
    (∃ t, exec .csumUpdate stH = .next t) ∧
    (∃ u, exec .csumUpdate { stH with pkt := { stH.pkt with csum := 0xBEEF } } = .next u) :=
  ⟨nofun, nofun, nofun, ⟨_, rfl⟩, ⟨_, rfl⟩⟩

theorem witness_ReservedFlagBitsArePreserved :
    writesReservedFlags (.flagsSet true false true) = false ∧
    (∃ t, exec (.flagsSet true false true) (holding { pktH with flags := 0xEE }) = .next t) := ⟨rfl, _, rfl⟩

/-- Both clauses; a CONSTRUCT without a checksum and one with zero. -/
theorem witness_UpdatesLeaveThePacketSendReady :
    endsWithUpdate (.seqAdv 1) = true ∧ (∃ t, exec (.seqAdv 1) stH = .next t ∧ t.resp = some ⟨.ok, .none⟩) ∧
    (none : Option Half).getD 0 = 0 ∧ (some 0 : Option Half).getD 0 = 0 ∧
    (∃ t, exec (.construct 1 2 none none none none (some 0)) stH = .next t ∧ t.resp = some ⟨.ok, .none⟩) :=
  ⟨rfl, next_of_answers (by decide +kernel), rfl, rfl, next_of_answers (by decide +kernel)⟩

/-- The last payload byte of H. -/
theorem witness_WireImageLayout : 4 < pktH.pay.length ∧ (wireImage pktH)[10 + 4]? = some 0x6F := by decide

theorem witness_ParseAndSerialiseAreInverse : 10 ≤ (zeros 10).length ∧ wireImage (parseWire (zeros 10)) = zeros 10 := by
  decide

/-- The taps and the last position. -/
theorem witness_CrcSerialFormAgrees : 0 < 16 ∧ 5 < 16 ∧ 12 < 16 ∧ 15 < 16 := by decide

theorem witness_CrcIsLinear : ([0x01] : List Byte).length = ([0x02] : List Byte).length ∧
    crc16 (xorBytes [0x01] [0x02]) = 0x3063 := by decide +kernel

/-- The first and the last byte of a sequence. -/
theorem witness_CrcDetectsSingleBitErrors : 0 < (zeros 2).length ∧ 1 < (zeros 2).length := by decide

/-- Every header byte and the last payload byte are inside the image. -/
theorem witness_AnyBitFlipFailsVerification :
    checksumValid pktH = true ∧ 0 < (wireImage pktH).length ∧ 14 < (wireImage pktH).length := by decide +kernel

/-- Both sides of the length bound; a checksum operand omitted, zero and not. -/
theorem witness_ConstructLoadsItsOperands :
    ((some (zeros 1009)).getD []).length > 1008 ∧ ((some (zeros 1008)).getD []).length ≤ 1008 ∧
    (none : Option Half).getD 0x0000 = 0x0000 ∧ (some 0xBEEF : Option Half).getD 0x0000 ≠ 0x0000 :=
  ⟨by decide +kernel, by decide +kernel, rfl, by decide⟩

theorem witness_EncodeReturnsTheImage : State.reset.valid = false ∧ stH.valid = true ∧ stH.wf := by
  refine ⟨rfl, rfl, ?_⟩
  show pktH.pay.length ≤ 1008
  decide

/-- Both sides of both bounds. -/
theorem witness_DecodeLoadsTheImage :
    (zeros 9).length < 10 ∧ 10 ≤ (zeros 10).length ∧ (zeros 1018).length ≤ 1018 ∧ (zeros 1019).length > 1018 := by
  simp only [zeros_length]
  decide

theorem witness_DecodeAnswersWhatClassifyAnswersNext :
    ∃ t, exec (.decodeWire (zeros 10)) stH = .next t ∧ t.resp = some ⟨.ok, .label .unclassified⟩ :=
  next_of_answers (by decide +kernel)

theorem witness_RoundTripThroughTheWire :
    stH.valid = true ∧ stH.pkt.pay.length ≤ 1008 ∧ 10 ≤ (zeros 1018).length ∧ (zeros 1018).length ≤ 1018 := by
  refine ⟨rfl, by decide, ?_, ?_⟩ <;> simp only [zeros_length] <;> decide

theorem witness_ConstructedPacketVerifiesEndToEnd :
    ((some pktH.pay).getD []).length ≤ 1008 ∧
    (∃ t, execAll [.construct 1 2 (some 0x10) (some 0x40) (some 5) (some pktH.pay) none, .encodeWire] stH = .next t ∧
      t.resp = some ⟨.ok, .bytes (wireImage pktH)⟩) ∧ 14 < (wireImage pktH).length :=
  ⟨by decide, next_of_answers (by decide +kernel), by decide⟩

/-- An image with a checksum of zero and one with another. -/
theorem witness_LoadersDifferOnlyOnAZeroChecksum :
    10 ≤ (zeros 10).length ∧ (zeros 10).length ≤ 1018 ∧ (parseWire (zeros 10)).csum = 0x0000 ∧
    10 ≤ (wireImage pktH).length ∧ (wireImage pktH).length ≤ 1018 ∧ (parseWire (wireImage pktH)).csum ≠ 0x0000 := by
  decide

theorem witness_ChecksumOperations :
    State.reset.valid = false ∧ Instr.csumVerify ∈ [Instr.csumCompute, .csumUpdate, .csumVerify] ∧
    stH.valid = true := by decide

theorem witness_ChecksumLaws : (holding { pktH with csum := 0xBEEF }).valid = true := rfl

theorem witness_FlagsSetDeterminesTheDefinedBits : State.reset.valid = false ∧ stH.valid = true ∧ 0 < 8 ∧ 7 < 8 := by
  decide

theorem witness_LastFlagsSetWins : stH.valid = true := rfl

/-- Every clause on the flags: the five exact matches, and no match with a payload and without one. -/
theorem witness_ClassifyIsExactMatch :
    State.reset.valid = false ∧ stH.valid = true ∧ stH.pkt.flags = 0x10 ∧
    (holding { pktH with flags := 0x02 }).pkt.flags = 0x02 ∧ (holding { pktH with flags := 0x01 }).pkt.flags = 0x01 ∧
    (holding { pktH with flags := 0x12 }).pkt.flags = 0x12 ∧ (holding { pktH with flags := 0x11 }).pkt.flags = 0x11 ∧
    (holding { pktH with flags := 0x82 }).pkt.flags ∉ ([0x02, 0x10, 0x01, 0x12, 0x11] : List Byte) ∧
    (holding { pktH with flags := 0x82 }).pkt.pay ≠ [] ∧ (holding pktK1).pkt.pay = [] := by decide

theorem witness_SeqAdvAddsModulo65535 : State.reset.valid = false ∧ (holding { pktH with seq := 0xFFFF }).valid = true :=
  ⟨rfl, rfl⟩

theorem witness_AckAdvAddsModulo65535 : State.reset.valid = false ∧ (holding { pktH with ack := 0xFFFF }).valid = true :=
  ⟨rfl, rfl⟩

/-- The last clause at both ends of its range. -/
theorem witness_AdvanceLaws :
    (0xFFFE : Half) ≠ 0xFFFF ∧ 65535 ≤ (0xFFFE : Half).toNat + 1 ∧ (0xFFFE : Half).toNat + 1 < 131070 ∧
    65535 ≤ (0xFFFE : Half).toNat + 65535 ∧ (0xFFFE : Half).toNat + 65535 < 131070 := by decide

theorem witness_ReadsReturnTheirElement :
    State.reset.valid = false ∧ stH.valid = true ∧
    Instr.rdPay ∈ [Instr.rdSeq, .rdAck, .rdFlags, .rdWin, .rdDlen, .rdCsum, .rdPay] := by decide

theorem witness_DirectWritesWriteOneElement :
    State.reset.valid = false ∧ stH.valid = true ∧
    Instr.wrCsum 0 ∈ [Instr.wrSeq 0, .wrAck 0, .wrFlags 0, .wrWin 0, .wrDlen 0, .wrCsum 0] := by decide

/-- Both sides of the bound, with a packet. -/
theorem witness_WritePayReplacesThePayload :
    State.reset.valid = false ∧ stH.valid = true ∧ (zeros 1009).length > 1008 ∧ (zeros 1008).length ≤ 1008 := by
  refine ⟨rfl, rfl, ?_, ?_⟩ <;> simp only [zeros_length] <;> decide

theorem witness_PayClearEmptiesThePayload : State.reset.valid = false ∧ stH.valid = true := ⟨rfl, rfl⟩

theorem witness_SetsWriteThenFinish :
    State.reset.valid = false ∧ stH.valid = true ∧
    Instr.setWin 0 ∈ [Instr.setSeq 0, .setAck 0, .setFlags 0, .setWin 0] := by decide

theorem witness_SetPayLeavesAConsistentPacket :
    State.reset.valid = false ∧ stH.valid = true ∧ (zeros 1009).length > 1008 ∧ (zeros 1008).length ≤ 1008 :=
  witness_WritePayReplacesThePayload

theorem witness_SetIsWritePlusTheEnding : stH.valid = true ∧ (zeros 1008).length ≤ 1008 :=
  ⟨rfl, (zeros_length 1008).le⟩

/-- A batch of two sets in both orders, the payload at its bound. -/
theorem witness_SetBatchesAreOrderIndependent :
    [FieldSet.win 0x20, .pay (zeros 1008)].Perm [.pay (zeros 1008), .win 0x20] ∧
    ([FieldSet.win 0x20, .pay (zeros 1008)].map FieldSet.field).Nodup ∧
    (∀ f ∈ [FieldSet.win 0x20, .pay (zeros 1008)], f.fits = true) ∧
    [FieldSet.win 0x20, .pay (zeros 1008)] ≠ [] ∧ stH.valid = true := by
  refine ⟨List.Perm.swap _ _ _, ?_, ?_, nofun, rfl⟩
  · show [(3 : Fin 5), 4].Nodup
    decide
  · intro f hf
    rcases List.mem_cons.1 hf with rfl | hf
    · rfl
    · obtain rfl := List.mem_singleton.1 hf
      exact zeros_fits 1008 (by decide)

theorem witness_PseudoOperationsDoWhatTheySay :
    (holding { pktH with pay := zeros 1008 }).valid = true ∧ (holding { pktH with pay := zeros 1008 }).wf :=
  ⟨rfl, show (zeros 1008).length ≤ 1008 by rw [zeros_length]⟩

end Sys2Proof.Tests
end

/-!
PROOFS, family 10_state. First every operation in one normal form: which error status it ends with, and otherwise the
packet it leaves and the result it answers. Then what each part of that normal form depends on, and the statements.
-/
namespace Sys2Proof.Machine

/-! ### The normal form of an operation -/

/-- The status a payload operand of the wrong length is answered with (spec/60_exceptions.md R145). -/
def payloadError (pay : List Byte) : Option Status := if 1008 < pay.length then some .oversize else none

/-- The status an image of the wrong length is answered with (R144, R145). -/
def imageError (raw : List Byte) : Option Status :=
  if raw.length < 10 then some .truncatedHeader else if 1018 < raw.length then some .oversize else none

/-- The error status an operation's operands cause. -/
def operandError : Instr → Option Status
  | .construct _ _ _ _ _ pay _ => payloadError (pay.getD [])
  | .decodeWire raw => imageError raw
  | .wrPay pay | .setPay pay => payloadError pay
  | _ => none

/-- The error status an operation ends with, none where it is performed: VALID is checked before the operands (R149). -/
def errorStatus (i : Instr) (valid : Bool) : Option Status :=
  if valid || loads i then operandError i else some .noPacket

/-- The packet a performed operation leaves in the slot that held `p`. -/
def packetAfter : Instr → Packet → Packet
  | .construct seq ack flags window dlen pay csum, _ =>
    constructChecksum (constructOperands seq ack flags window dlen pay csum)
  | .decodeWire raw, _ => parseWire raw
  | .encodeWire, p | .csumCompute, p | .csumVerify, p | .classify, p => p
  | .csumUpdate, p => updateChecksum p
  | .flagsSet ack syn fin, p => updateChecksum { p with flags := setFlagBits p.flags ack syn fin }
  | .seqAdv amount, p => updateChecksum { p with seq := advance p.seq amount.toNat }
  | .ackAdv amount, p => updateChecksum { p with ack := advance p.ack amount.toNat }
  | .rdSeq, p | .rdAck, p | .rdFlags, p | .rdWin, p | .rdDlen, p | .rdCsum, p | .rdPay, p => p
  | .wrSeq v, p => { p with seq := v }
  | .wrAck v, p => { p with ack := v }
  | .wrFlags v, p => { p with flags := v }
  | .wrWin v, p => { p with window := v }
  | .wrDlen v, p => { p with dlen := v }
  | .wrCsum v, p => { p with csum := v }
  | .wrPay pay, p => { p with pay := pay }
  | .payClear, p => { p with pay := [] }
  | .setSeq v, p => setFinish { p with seq := v }
  | .setAck v, p => setFinish { p with ack := v }
  | .setFlags v, p => setFinish { p with flags := v }
  | .setWin v, p => setFinish { p with window := v }
  | .setPay pay, p => setFinish { p with pay := pay }

/-- The result a performed operation answers with, `p` being the packet it found. -/
def resultAfter : Instr → Packet → Result
  | .decodeWire raw, _ => .label (classify (parseWire raw).flags (parseWire raw).plen)
  | .encodeWire, p => .bytes (wireImage p)
  | .csumCompute, p => .half (computeChecksum p)
  | .csumVerify, p => .bit (checksumValid p)
  | .classify, p => .label (classify p.flags p.plen)
  | .rdSeq, p => .half p.seq
  | .rdAck, p => .half p.ack
  | .rdFlags, p => .byte p.flags
  | .rdWin, p => .byte p.window
  | .rdDlen, p => .half p.dlen
  | .rdCsum, p => .half p.csum
  | .rdPay, p => .bytes (memRead p.pay 0 p.plen)
  | _, _ => .none

/-- The payload an operation puts in the place of the one in the slot. -/
def payloadOperand : Instr → Option (List Byte)
  | .wrPay pay | .setPay pay => some pay
  | _ => none

theorem payloadError_ne_ok (pay : List Byte) : payloadError pay ≠ some .ok := by
  unfold payloadError
  split <;> simp

theorem imageError_ne_ok (raw : List Byte) : imageError raw ≠ some .ok := by
  unfold imageError
  split
  · simp
  · split <;> simp

theorem operandError_ne_ok (i : Instr) : operandError i ≠ some .ok := by
  cases i with
  | construct _ _ _ _ _ pay _ => exact payloadError_ne_ok _
  | decodeWire raw => exact imageError_ne_ok raw
  | wrPay pay | setPay pay => exact payloadError_ne_ok pay
  | _ => nofun

/-- An error status is not OK. -/
theorem errorStatus_ne_ok (i : Instr) (v : Bool) : errorStatus i v ≠ some .ok := by
  unfold errorStatus
  split
  · exact operandError_ne_ok i
  · simp

/-- Only a loader is performed without a packet (R24, R146). -/
theorem loads_of_errorStatus_none {i : Instr} (h : errorStatus i false = none) : loads i = true := by
  by_contra hi
  simp [errorStatus, hi] at h

theorem needFit_eq (pay : List Byte) (s : State) (k : Out) :
    needFit pay s k = (payloadError pay).elim k (raise · s) := by
  unfold payloadError
  split
  case isTrue h => exact needFit_oversize h s k
  case isFalse h => exact needFit_fits (Nat.not_lt.mp h) s k

theorem execDecode_eq (raw : List Byte) (s : State) :
    execDecode raw s = (imageError raw).elim
      (performed (s.load (parseWire raw)) (.label (classify (parseWire raw).flags (parseWire raw).plen)))
      (raise · s) := by
  simp only [execDecode, imageError, params_headerLen, params_packetMax, gt_iff_lt]
  split
  · rfl
  · split <;> rfl

/-- Where there is a packet, rewriting it in place is loading the rewritten one. -/
theorem State.store_eq_load {s : State} (h : s.valid = true) (p : Packet) : s.store p = s.load p := by
  simp [State.store, State.load, h]

theorem State.load_self {s : State} (h : s.valid = true) : s.load s.pkt = s :=
  (State.store_eq_load h s.pkt).symm

theorem readOut_eq_load {s : State} (h : s.valid = true) (f : Packet → Result) :
    readOut f s = performed (s.load s.pkt) (f s.pkt) := by
  rw [readOut_valid h, State.load_self h, performed]

theorem mutate_eq_load {s : State} (h : s.valid = true) (f : Packet → Packet) :
    mutate f s = performed (s.load (f s.pkt)) .none := by
  rw [mutate_valid h, State.store_eq_load h, performed]

theorem mutatePay_eq_load {s : State} (h : s.valid = true) (pay : List Byte) (f : Packet → Packet) :
    mutatePay pay f s = (payloadError pay).elim (performed (s.load (f s.pkt)) .none) (raise · s) := by
  rw [mutatePay, needPacket_valid h, needFit_eq, State.store_eq_load h]

/-- The operations of R36 are reads. -/
theorem exec_of_readOnly {i : Instr} (h : readOnly i = true) (s : State) : exec i s = readOut (resultAfter i) s := by
  cases i with
  | encodeWire | csumCompute | csumVerify | classify | rdSeq | rdAck | rdFlags | rdWin | rdDlen | rdCsum | rdPay => rfl
  | _ => cases h

/-- The operations that replace the payload by an operand. -/
theorem exec_of_payloadOperand {i : Instr} {pay : List Byte} (h : payloadOperand i = some pay) (s : State) :
    exec i s = mutatePay pay (packetAfter i) s := by
  cases i with
  | wrPay | setPay =>
    obtain rfl := Option.some.inj h
    rfl
  | _ => cases h

/-- Every other operation but the loaders rewrites the packet in place. -/
theorem exec_of_mutation {i : Instr} (hload : loads i = false) (hread : readOnly i = false)
    (hpay : payloadOperand i = none) (s : State) : exec i s = mutate (packetAfter i) s := by
  cases i with
  | construct | decodeWire => cases hload
  | encodeWire | csumCompute | csumVerify | classify | rdSeq | rdAck | rdFlags | rdWin | rdDlen | rdCsum | rdPay =>
    cases hread
  | wrPay | setPay => cases hpay
  | _ => rfl

/-- With a packet, an operation raises the error of its operands or is performed. -/
theorem exec_eq_of_valid {s : State} (h : s.valid = true) (i : Instr) :
    exec i s = (operandError i).elim (performed (s.load (packetAfter i s.pkt)) (resultAfter i s.pkt)) (raise · s) := by
  cases i with
  | construct seq ack flags window dlen pay csum => exact needFit_eq _ _ _
  | decodeWire raw => exact execDecode_eq raw s
  | wrPay pay | setPay pay => exact (exec_of_payloadOperand rfl s).trans (mutatePay_eq_load h pay _)
  | encodeWire | csumCompute | csumVerify | classify | rdSeq | rdAck | rdFlags | rdWin | rdDlen | rdCsum | rdPay =>
    exact (exec_of_readOnly rfl s).trans (readOut_eq_load h _)
  | _ => exact (exec_of_mutation rfl rfl rfl s).trans (mutate_eq_load h _)

/-- The normal form: every operation raises its error status or, performed, loads the packet it leaves. -/
theorem exec_eq (i : Instr) (s : State) :
    exec i s =
      (errorStatus i s.valid).elim (performed (s.load (packetAfter i s.pkt)) (resultAfter i s.pkt)) (raise · s) := by
  cases h : s.valid with
  | true => exact exec_eq_of_valid h i
  | false =>
    cases i with
    | construct seq ack flags window dlen pay csum => exact needFit_eq _ _ _
    | decodeWire raw => exact execDecode_eq raw s
    | _ => exact exec_invalid rfl h

/-- Everything an operation can do. -/
theorem exec_next (i : Instr) (s t : State) :
    exec i s = .next t ↔
      (∃ st, errorStatus i s.valid = some st ∧ t = s.answer st .none) ∨
      (errorStatus i s.valid = none ∧ t = (s.load (packetAfter i s.pkt)).answer .ok (resultAfter i s.pkt)) := by
  rw [exec_eq]
  cases errorStatus i s.valid with
  | none => simp [performed_next]
  | some st => simp [raise_next]

theorem exec_total (i : Instr) (s : State) : ∃ t, exec i s = .next t := by
  obtain ⟨_, _, h, _⟩ | ⟨_, _, h, _⟩ | ⟨_, _, h, _⟩ := exec_shape i s <;> exact ⟨_, h⟩

/-- Two runs of one operation from states with the same VALID end the same way. -/
theorem exec_next_pair {i : Instr} {s s' t t' : State} (h : exec i s = .next t) (h' : exec i s' = .next t')
    (hv : s.valid = s'.valid) :
    (∃ st, errorStatus i s.valid = some st ∧ t = s.answer st .none ∧ t' = s'.answer st .none) ∨
    (errorStatus i s.valid = none ∧ t = (s.load (packetAfter i s.pkt)).answer .ok (resultAfter i s.pkt) ∧
      t' = (s'.load (packetAfter i s'.pkt)).answer .ok (resultAfter i s'.pkt)) := by
  rw [exec_eq] at h
  rw [exec_eq, ← hv] at h'
  cases he : errorStatus i s.valid with
  | some st =>
    rw [he] at h h'
    exact .inl ⟨st, rfl, (raise_next ..).mp h, (raise_next ..).mp h'⟩
  | none =>
    rw [he] at h h'
    exact .inr ⟨rfl, (performed_next ..).mp h, (performed_next ..).mp h'⟩

/-! ### The payload bound -/

/-- Every operation keeps the payload bound (spec/10_state.md R23): what it writes fits, or is refused. -/
theorem exec_memory_wf {i : Instr} {s t : State} (h : exec i s = .next t) (hs : Memory.wf s.pkt.pay) :
    Memory.wf t.pkt.pay := by
  cases i with
  | construct seq ack flags window dlen pay csum => exact execConstruct_memory_wf h hs
  | decodeWire raw => exact execDecode_memory_wf h hs
  | wrPay pay | setPay pay => exact mutatePay_memory_wf ((exec_of_payloadOperand rfl s).symm.trans h) rfl hs
  | encodeWire | csumCompute | csumVerify | classify | rdSeq | rdAck | rdFlags | rdWin | rdDlen | rdCsum | rdPay =>
    exact readOut_memory_wf ((exec_of_readOnly rfl s).symm.trans h) hs
  | payClear => exact mutate_memory_wf ((exec_payClear s).symm.trans h) (Nat.zero_le _) hs
  | _ => exact mutate_memory_wf ((exec_of_mutation rfl rfl rfl s).symm.trans h) hs hs

/-- Every step keeps the payload bound. -/
theorem step_memory_wf {s t : State} (h : step s = .next t) (hs : Memory.wf s.pkt.pay) : Memory.wf t.pkt.pay := by
  obtain ⟨_, rfl⟩ | ⟨_, _, rfl⟩ | ⟨_, _, _, _, _, hexec⟩ | ⟨_, _, _, _, rfl⟩ := (step_next s t).mp h
  · exact hs
  · exact reset_memory_wf
  · exact exec_memory_wf hexec hs
  · exact hs

/-- Settles O13: the bound is kept by every step, and the image is the header and the payload. -/
theorem stepKeepsThePayloadBound : Obligations.StepKeepsThePayloadBound := by
  intro s t hs h
  have ht : t.pkt.pay.length ≤ 1008 := step_memory_wf h hs
  have himage : (wireImage t.pkt).length = 10 + t.pkt.pay.length := wireImage_length t.pkt
  exact ⟨ht, by omega, by omega⟩

/-- Settles O14. -/
theorem resetHasThePayloadBound : Obligations.ResetHasThePayloadBound := reset_memory_wf

/-! ### What the slot holds without a packet is not observed -/

/-- Agreement in what is observed, element by element. -/
theorem State.observed_eq_iff (s t : State) :
    s.observed = t.observed ↔
      s.valid = t.valid ∧ (s.valid = true → s.pkt = t.pkt) ∧ s.pending = t.pending ∧ s.resp = t.resp := by
  cases hs : s.valid <;> cases ht : t.valid <;> simp [State.observed, hs, ht]

/-- A loader reads nothing of the packet it finds. -/
theorem packetAfter_of_loads {i : Instr} (h : loads i = true) (p q : Packet) : packetAfter i p = packetAfter i q := by
  cases i with
  | construct | decodeWire => rfl
  | _ => cases h

theorem resultAfter_of_loads {i : Instr} (h : loads i = true) (p q : Packet) : resultAfter i p = resultAfter i q := by
  cases i with
  | construct | decodeWire => rfl
  | _ => cases h

/-- What the host observes after an operation is decided by what it observed before: without a packet only a loader is
performed, and a loader reads nothing of the slot. -/
theorem exec_observed {i : Instr} {s t s' t' : State} (h : s.observed = t.observed) (hs : exec i s = .next s')
    (ht : exec i t = .next t') : s'.observed = t'.observed := by
  obtain ⟨hvalid, hpkt, hpending, hresp⟩ := (State.observed_eq_iff s t).mp h
  obtain ⟨st, _, rfl, rfl⟩ | ⟨hok, rfl, rfl⟩ := exec_next_pair hs ht hvalid
  · exact (State.observed_eq_iff _ _).mpr ⟨hvalid, hpkt, hpending, rfl⟩
  have hafter : packetAfter i s.pkt = packetAfter i t.pkt ∧ resultAfter i s.pkt = resultAfter i t.pkt := by
    cases hv : s.valid with
    | true => simp [hpkt hv]
    | false =>
      have hload : loads i = true := loads_of_errorStatus_none (hv ▸ hok)
      exact ⟨packetAfter_of_loads hload _ _, resultAfter_of_loads hload _ _⟩
  refine (State.observed_eq_iff _ _).mpr ⟨rfl, fun _ => hafter.1, hpending, ?_⟩
  simp [hafter.2]

/-- What the host observes is not changed by taking the event it presented off the queue. -/
theorem State.observed_pending {s t : State} (h : s.observed = t.observed) (rest : List HostEvent) :
    State.observed { s with pending := rest } = State.observed { t with pending := rest } := by
  obtain ⟨hvalid, hpkt, _, hresp⟩ := (State.observed_eq_iff s t).mp h
  exact (State.observed_eq_iff _ _).mpr ⟨hvalid, hpkt, rfl, hresp⟩

theorem execRequest_observed {r : Request} {s t : State} (h : s.observed = t.observed) :
    ∃ s' t', execRequest exec r s = .next s' ∧ execRequest exec r t = .next t' ∧ s'.observed = t'.observed := by
  obtain ⟨s', hs⟩ := execRequest_total exec_total r s
  obtain ⟨t', ht⟩ := execRequest_total exec_total r t
  refine ⟨s', t', hs, ht, ?_⟩
  cases hd : decode r with
  | instr i =>
    rw [execRequest_instr hd] at hs ht
    exact exec_observed h hs ht
  | badOp =>
    simp only [execRequest, hd, raise_next] at hs ht
    obtain ⟨hvalid, hpkt, hpending, _⟩ := (State.observed_eq_iff s t).mp h
    exact hs ▸ ht ▸ (State.observed_eq_iff _ _).mpr ⟨hvalid, hpkt, hpending, rfl⟩

/-- One step does not tell apart states the host cannot tell apart. -/
theorem step_observed {s t : State} (h : s.observed = t.observed) :
    ∃ s' t', step s = .next s' ∧ step t = .next t' ∧ s'.observed = t'.observed := by
  obtain ⟨_, _, hpending, _⟩ := (State.observed_eq_iff s t).mp h
  cases hp : t.pending with
  | nil => exact ⟨s, t, step_idle (hpending.trans hp), step_idle hp, h⟩
  | cons e rest =>
    cases e with
    | reset => exact ⟨_, _, step_reset (hpending.trans hp), step_reset hp, rfl⟩
    | present r =>
      rw [step_present (hpending.trans hp), step_present hp]
      exact execRequest_observed (State.observed_pending h rest)

/-- Running on after a step that answers a next state. -/
theorem run_succ_of_step {s s' : State} (h : step s = .next s') (k : Nat) :
    Host.Core.run Sys2Proof.core (k + 1) s = Host.Core.run Sys2Proof.core k s' := by
  have hcore : Host.Core.step Sys2Proof.core s = .next s' := h
  simp only [Host.Core.run, hcore]

/-- No number of steps tells apart states the host cannot tell apart. -/
theorem run_observed (k : Nat) {s t : State} (h : s.observed = t.observed) :
    observedOut (Host.Core.run Sys2Proof.core k s) = observedOut (Host.Core.run Sys2Proof.core k t) := by
  induction k generalizing s t with
  | zero => exact congrArg some h
  | succ k ih =>
    obtain ⟨s', t', hs, ht, hobs⟩ := step_observed h
    rw [run_succ_of_step hs, run_succ_of_step ht]
    exact ih hobs

/-- Settles O9: states without a packet that agree on the queue and the last response are observed as equal. -/
theorem resetValuesAreUnobservable : Obligations.ResetValuesAreUnobservable := by
  refine ⟨rfl, fun s t hs ht hpending hresp k => run_observed k ?_⟩
  exact (State.observed_eq_iff s t).mpr ⟨hs.trans ht.symm, by simp [hs], hpending, hresp⟩

/-! ### The life of VALID -/

/-- No operation clears VALID. -/
theorem exec_keeps_valid {i : Instr} {s t : State} (h : exec i s = .next t) (hs : s.valid = true) :
    t.valid = true := by
  obtain ⟨_, _, rfl⟩ | ⟨_, rfl⟩ := (exec_next i s t).mp h
  · exact hs
  · rfl

/-- Only a loader that answers OK sets VALID. -/
theorem exec_sets_valid {i : Instr} {s t : State} (h : exec i s = .next t) (hs : s.valid = false)
    (ht : t.valid = true) : loads i = true ∧ ∃ res, t.resp = some ⟨.ok, res⟩ := by
  obtain ⟨_, _, rfl⟩ | ⟨hok, rfl⟩ := (exec_next i s t).mp h
  · simp [hs] at ht
  · exact ⟨loads_of_errorStatus_none (hs ▸ hok), _, rfl⟩

/-- An operation that answers OK leaves a packet in the slot. -/
theorem exec_ok_valid {i : Instr} {s t : State} {res : Result} (h : exec i s = .next t)
    (hok : t.resp = some ⟨.ok, res⟩) : t.valid = true := by
  obtain ⟨st, herr, rfl⟩ | ⟨_, rfl⟩ := (exec_next i s t).mp h
  · obtain ⟨rfl, _⟩ : st = .ok ∧ Result.none = res := by simpa using hok
    exact absurd herr (errorStatus_ne_ok i s.valid)
  · rfl

theorem step_clears_valid {s t : State} (h : step s = .next t) (hs : s.valid = true) (ht : t.valid = false) :
    s.pending.head? = some .reset := by
  obtain ⟨_, rfl⟩ | ⟨_, hp, _⟩ | ⟨_, _, _, _, _, hexec⟩ | ⟨_, _, _, _, rfl⟩ := (step_next s t).mp h
  · simp [hs] at ht
  · simp [hp]
  · simp [exec_keeps_valid hexec hs] at ht
  · simp [hs] at ht

theorem step_sets_valid {s t : State} (h : step s = .next t) (hs : s.valid = false) (ht : t.valid = true) :
    ∃ r i res, s.pending.head? = some (.present r) ∧ decode r = .instr i ∧ loads i = true ∧
      t.resp = some ⟨.ok, res⟩ := by
  obtain ⟨_, rfl⟩ | ⟨_, _, rfl⟩ | ⟨r, _, i, hp, hd, hexec⟩ | ⟨_, _, _, _, rfl⟩ := (step_next s t).mp h
  · simp [hs] at ht
  · cases ht
  · obtain ⟨hload, res, hresp⟩ := exec_sets_valid hexec hs ht
    exact ⟨r, i, res, by simp [hp], hd, hload, hresp⟩
  · simp [hs] at ht

/-- Settles O10. -/
theorem validLifecycle : Obligations.ValidLifecycle :=
  ⟨rfl, fun _ _ => step_clears_valid, fun _ _ => step_sets_valid, fun _ _ _ _ _ => exec_ok_valid⟩

/-! ### The frame: what a performed operation leaves of the packet it found

In each lemma the named operations are those the access matrix (spec/10_state.md R24) marks as writing the element. -/

section Frame
variable {i : Instr} (p : Packet)

theorem packetAfter_seq (h : .seq ∉ writes i) : (packetAfter i p).seq = p.seq := by
  cases i with
  | construct | decodeWire | seqAdv | wrSeq | setSeq => simp [writes] at h
  | _ => rfl

theorem packetAfter_ack (h : .ack ∉ writes i) : (packetAfter i p).ack = p.ack := by
  cases i with
  | construct | decodeWire | ackAdv | wrAck | setAck => simp [writes] at h
  | _ => rfl

theorem packetAfter_flags (h : .flags ∉ writes i) : (packetAfter i p).flags = p.flags := by
  cases i with
  | construct | decodeWire | flagsSet | wrFlags | setFlags => simp [writes] at h
  | _ => rfl

theorem packetAfter_window (h : .win ∉ writes i) : (packetAfter i p).window = p.window := by
  cases i with
  | construct | decodeWire | wrWin | setWin => simp [writes] at h
  | _ => rfl

theorem packetAfter_dlen (h : .dlen ∉ writes i) : (packetAfter i p).dlen = p.dlen := by
  cases i with
  | construct | decodeWire | wrDlen | setSeq | setAck | setFlags | setWin | setPay => simp [writes] at h
  | _ => rfl

theorem packetAfter_csum (h : .csum ∉ writes i) : (packetAfter i p).csum = p.csum := by
  cases i with
  | construct | decodeWire | csumUpdate | flagsSet | seqAdv | ackAdv | wrCsum | setSeq | setAck | setFlags | setWin
  | setPay => simp [writes] at h
  | _ => rfl

theorem packetAfter_pay (h : .pay ∉ writes i) : (packetAfter i p).pay = p.pay := by
  cases i with
  | construct | decodeWire | wrPay | payClear | setPay => simp [writes] at h
  | _ => rfl

end Frame

/-- Settles O19: an error status writes nothing, and a performed operation leaves the elements it does not write. -/
theorem accessMatrixFrame : Obligations.AccessMatrixFrame := by
  intro i s t h
  obtain ⟨st, _, rfl⟩ | ⟨hok, rfl⟩ := (exec_next i s t).mp h
  · simp
  · refine ⟨packetAfter_seq _, packetAfter_ack _, packetAfter_flags _, packetAfter_window _, packetAfter_dlen _,
      packetAfter_csum _, fun hpay a => congrArg (·[a]?) (packetAfter_pay _ hpay), fun hload => ?_, rfl⟩
    cases hv : s.valid with
    | true => rfl
    | false => simp [loads_of_errorStatus_none (hv ▸ hok)] at hload

/-! ### The declared length -/

/-- The payload an operation leaves depends on the one it found alone. -/
theorem packetAfter_pay_congr (i : Instr) {p q : Packet} (h : p.pay = q.pay) :
    (packetAfter i p).pay = (packetAfter i q).pay := by
  cases i with
  | construct | decodeWire | wrPay | payClear | setPay => rfl
  | _ => exact h

/-- A label result depends on FLAGS and the payload alone. -/
theorem resultAfter_label_congr {i : Instr} {p q : Packet} {l : TypeLabel} (hflags : p.flags = q.flags)
    (hpay : p.pay = q.pay) (h : resultAfter i p = .label l) : resultAfter i q = .label l := by
  cases i with
  | decodeWire => exact h
  | classify => rwa [resultAfter, Packet.plen, ← hflags, ← hpay]
  | _ => cases h

/-- The length of a byte result depends on the payload alone. -/
theorem resultAfter_bytes_congr {i : Instr} {p q : Packet} {b : List Byte} (hpay : p.pay = q.pay)
    (h : resultAfter i p = .bytes b) : ∃ c, resultAfter i q = .bytes c ∧ c.length = b.length := by
  cases i with
  | encodeWire =>
    obtain rfl := Result.bytes.inj h
    exact ⟨_, rfl, by simp [wireImage_length, Packet.plen, hpay]⟩
  | rdPay =>
    obtain rfl := Result.bytes.inj h
    exact ⟨_, rfl, by simp [Packet.plen, hpay]⟩
  | _ => cases h

/-- Settles O22: VALID is the same, so both runs end the same way, and nothing asked for depends on DLEN. -/
theorem declaredLengthDecidesNoLength : Obligations.DeclaredLengthDecidesNoLength := by
  intro i s d t u r q ht hu hr hq
  obtain ⟨st, _, rfl, rfl⟩ | ⟨_, rfl, rfl⟩ := exec_next_pair ht hu rfl
  · obtain rfl := Option.some.inj hr
    obtain rfl := Option.some.inj hq
    exact ⟨rfl, rfl, rfl, nofun, nofun⟩
  · obtain rfl := Option.some.inj hr
    obtain rfl := Option.some.inj hq
    exact ⟨rfl, packetAfter_pay_congr i rfl, rfl, fun _ => resultAfter_label_congr rfl rfl,
      fun _ => resultAfter_bytes_congr rfl⟩

/-! ### The stored checksum -/

/-- The result of every operation but the three that read CSUM is the same whatever CSUM holds. -/
theorem resultAfter_with_csum {i : Instr} (hencode : i ≠ .encodeWire) (hverify : i ≠ .csumVerify)
    (hread : i ≠ .rdCsum) (p : Packet) (c : Half) : resultAfter i { p with csum := c } = resultAfter i p := by
  cases i with
  | encodeWire => exact absurd rfl hencode
  | csumVerify => exact absurd rfl hverify
  | rdCsum => exact absurd rfl hread
  | csumCompute => exact congrArg Result.half (computeChecksum_with_csum p c)
  | _ => rfl

/-- No element but CSUM of the packet an operation leaves depends on the CSUM it found: an operation writes it, by an
operand or by a checksum that does not read it (spec/40_crc16.md R72), or leaves it where it was. -/
theorem packetAfter_with_csum (i : Instr) (p : Packet) (c : Half) :
    ({ packetAfter i { p with csum := c } with csum := 0 } : Packet) = { packetAfter i p with csum := 0 } := by
  cases i <;> rfl

/-- Settles O23: VALID is the same, so both runs end the same way, and only the stored checksum differs. -/
theorem storedChecksumIsSeenOnlyWhereRead : Obligations.StoredChecksumIsSeenOnlyWhereRead := by
  intro i s c t u hencode hverify hread ht hu
  obtain ⟨st, _, rfl, rfl⟩ | ⟨_, rfl, rfl⟩ := exec_next_pair ht hu rfl
  · exact ⟨rfl, rfl, rfl⟩
  · refine ⟨?_, rfl, (packetAfter_with_csum i s.pkt c).symm⟩
    simp [resultAfter_with_csum hencode hverify hread]

/-! ### The reserved flag bits -/

/-- FLAGS.SET keeps the reserved bits: they are in the mask it keeps, and in none of the three flags it sets. -/
theorem setFlagBits_reserved (x : Byte) (ack syn fin : Bool) {k : Nat} (hk : k ∈ [2, 3, 5, 6, 7]) :
    (setFlagBits x ack syn fin).getLsbD k = x.getLsbD k := by
  have hmask : ∀ k ∈ [2, 3, 5, 6, 7], flagReserved.getLsbD k = true ∧ flagAck.getLsbD k = false ∧
      flagSyn.getLsbD k = false ∧ flagFin.getLsbD k = false := by decide
  obtain ⟨hreserved, hack, hsyn, hfin⟩ := hmask k hk
  simp [setFlagBits, apply_ite (BitVec.getLsbD · k), hreserved, hack, hsyn, hfin]

/-- The reserved bits of the packet an operation leaves, but for the four operations of R13. -/
theorem packetAfter_reserved {i : Instr} (h : writesReservedFlags i = false) (p : Packet) {k : Nat}
    (hk : k ∈ [2, 3, 5, 6, 7]) : (packetAfter i p).flags.getLsbD k = p.flags.getLsbD k := by
  cases i with
  | construct | decodeWire | wrFlags | setFlags => cases h
  | flagsSet ack syn fin => exact setFlagBits_reserved p.flags ack syn fin hk
  | _ => rfl

/-- Settles O24. -/
theorem reservedFlagBitsArePreserved : Obligations.ReservedFlagBitsArePreserved := by
  intro i s t hi h k hk
  obtain ⟨_, _, rfl⟩ | ⟨_, rfl⟩ := (exec_next i s t).mp h
  · rfl
  · exact packetAfter_reserved hi s.pkt hk

end Sys2Proof.Machine

/-!
PROOFS, family 20_memory. A step runs the request at the head of the queue; no operation reads or writes the queue, so a
queued program is a fold; and an operation that only reads writes its response and nothing it depends on.
-/
namespace Sys2Proof.Machine

/-! ### The decoder reads back what the encoder presents -/

/-- An optional operand presented with its present bit is read back, whatever the port of an omitted one carries. -/
theorem givenIf_isSome_getD {α : Type} (o : Option α) (d : α) : givenIf o.isSome (o.getD d) = o := by
  cases o <;> rfl

/-- The encoding of an operation decodes to it: the present mask and `afs` give back their bits, and every other port
carries its operand as it is (spec/30_encoding.md R54). -/
theorem decode_encode (i : Instr) : decode (encode i) = .instr i := by
  cases i with
  | construct seq ack flags window dlen pay csum =>
    obtain ⟨hflags, hwindow, hdlen, hpay, hcsum⟩ :=
      presentMask_bits flags.isSome window.isSome dlen.isSome pay.isSome csum.isSome
    show Decoded.instr (decodeConstruct (encode _)) = _
    simp only [decodeConstruct, encode, hflags, hwindow, hdlen, hpay, hcsum, givenIf_isSome_getD]
  | flagsSet ack syn fin =>
    obtain ⟨hack, hsyn, hfin⟩ := afsOf_bits ack syn fin
    show Decoded.instr (.flagsSet ((afsOf ack syn fin).getLsbD 2) ((afsOf ack syn fin).getLsbD 1)
      ((afsOf ack syn fin).getLsbD 0)) = _
    rw [hack, hsyn, hfin]
  | _ => rfl

/-! ### Queued operations -/

/-- Settles O6. -/
theorem stepRunsTheDecodedOperation : Obligations.StepRunsTheDecodedOperation :=
  fun _ _ _ _ hpending hdecode => (step_present hpending).trans (execRequest_instr hdecode _)

/-- The queue an operation finds decides nothing but the queue it leaves, which is the same. -/
theorem exec_with_pending {i : Instr} {s t : State} (h : exec i s = .next t) (q : List HostEvent) :
    exec i { s with pending := q } = .next { t with pending := q } := by
  obtain ⟨st, herr, rfl⟩ | ⟨hok, rfl⟩ := (exec_next i s t).mp h
  · exact (exec_next ..).mpr (.inl ⟨st, herr, rfl⟩)
  · exact (exec_next ..).mpr (.inr ⟨hok, rfl⟩)

/-- A step with an operation at the head of the queue executes it and leaves the queue after it. -/
theorem step_queued {i : Instr} {s t : State} (h : exec i s = .next t) (q : List HostEvent) :
    step { s with pending := .present (encode i) :: q } = .next { t with pending := q } :=
  (stepRunsTheDecodedOperation _ _ _ _ rfl (decode_encode i)).trans (exec_with_pending h q)

/-- A list of operations runs on after its first, which answers a next state. -/
theorem execAll_cons_of_exec {i : Instr} {s t : State} (h : exec i s = .next t) (is : List Instr) :
    execAll (i :: is) s = execAll is t := by
  simp only [execAll, h]

/-- Settles O7, by induction on the list: the operation at the head is executed with the others still queued, which
changes nothing but the queue it leaves. -/
theorem queuedProgramsRunAsFolds : Obligations.QueuedProgramsRunAsFolds := by
  intro is s rest
  induction is generalizing s with
  | nil => rfl
  | cons i is ih =>
    obtain ⟨t, ht⟩ := exec_total i s
    have hstep := step_queued ht (is.map (fun i => HostEvent.present (encode i)) ++ rest)
    have hhead := execAll_cons_of_exec (exec_with_pending ht rest) is
    exact (run_succ_of_step hstep is.length).trans ((ih t).trans hhead.symm)

/-! ### The operations that only read -/

/-- The response of an operation that only reads; it does not depend on the response before it. -/
def readResponse (i : Instr) (s : State) : Response :=
  if s.valid then ⟨.ok, resultAfter i s.pkt⟩ else ⟨.noPacket, .none⟩

/-- All that an operation of R36 does is to respond. -/
theorem exec_readOnly {i : Instr} (h : readOnly i = true) (s : State) :
    exec i s = .next { s with resp := some (readResponse i s) } := by
  rw [exec_of_readOnly h, readResponse]
  by_cases hv : s.valid = true
  · rw [readOut_valid hv, if_pos hv, State.answer]
  · rw [readOut_invalid (Bool.eq_false_of_not_eq_true hv), if_neg hv, State.answer]

/-- The eleven operations R36 names are those that only read. -/
theorem readOnly_of_mem {i : Instr}
    (h : i ∈ [Instr.encodeWire, .csumCompute, .csumVerify, .classify, .rdSeq, .rdAck, .rdFlags, .rdWin, .rdDlen,
      .rdCsum, .rdPay]) : readOnly i = true := by
  revert i
  decide

/-- Settles O20: the repeated read finds the packet and VALID it read the first time. -/
theorem readsHaveNoSideEffect : Obligations.ReadsHaveNoSideEffect := by
  intro i s hmem
  have hread := readOnly_of_mem hmem
  exact ⟨_, exec_readOnly hread s, rfl, rfl, rfl, exec_readOnly hread _⟩

/-- Settles O21: in either order both reads find the same packet and VALID. -/
theorem readOnlyOperationsCommute : Obligations.ReadOnlyOperationsCommute :=
  fun _ _ s hi hj =>
    ⟨_, _, _, _, exec_readOnly hi s, exec_readOnly hj _, exec_readOnly hj s, exec_readOnly hi _,
      rfl, rfl, rfl, rfl, rfl⟩

end Sys2Proof.Machine

/-!
PROOFS, family 30_encoding. A decoded operation agrees with its request on the ports the code uses, and no other port has
a say in what is decoded; the wire image is ten header bytes and the payload, and parsing undoes it; and the
pseudo-operations are runs of operations whose outcome is known.
-/
namespace Sys2Proof.Machine

/-- Settles O1 by `decode_encode`, a case for each operation. -/
theorem decodeEncodeRoundTrip : Obligations.DecodeEncodeRoundTrip := decode_encode

/-! ### The operand formats -/

theorem isSome_givenIf {α : Type} (given : Bool) (v : α) : (givenIf given v).isSome = given := by
  cases given <;> rfl

/-- The port of an operand that is given carries it. -/
theorem getD_givenIf {α : Type} {given : Bool} (h : given = true) (v d : α) : (givenIf given v).getD d = v := by
  rw [h, givenIf_true, Option.getD_some]

/-- The port of an operand that is omitted has no say in it. -/
theorem givenIf_congr {α : Type} {given : Bool} {v w : α} (h : given = true → v = w) :
    givenIf given v = givenIf given w := by
  cases given with
  | true => rw [h rfl]
  | false => rfl

/-- A present mask is the mask of its five bits (spec/30_encoding.md R54). -/
theorem presentMask_getLsbD (m : BitVec 5) :
    presentMask (m.getLsbD 0) (m.getLsbD 1) (m.getLsbD 2) (m.getLsbD 3) (m.getLsbD 4) = m := by
  revert m
  decide

/-- `afs` is made of its three bits (spec/30_encoding.md R54). -/
theorem afsOf_getLsbD (a : BitVec 3) : afsOf (a.getLsbD 2) (a.getLsbD 1) (a.getLsbD 0) = a := by
  revert a
  decide

theorem encode_op (i : Instr) : (encode i).op = i.opcode := by
  cases i <;> rfl

/-- Every operation has a row in the table of R55. -/
theorem opRow_opcode_isSome (i : Instr) : (opRow i.opcode).isSome = true := by
  cases i <;> rfl

/-! ### The used ports -/

/-- What the decoder reads agrees with the request on every port the request's code uses. But for CONSTRUCT and FLAGS.SET
the one used port, if any, carries the operand as it is. -/
theorem sameUsedPorts_of_decode {r : Request} {i : Instr} (h : decode r = .instr i) : (encode i).sameUsedPorts r := by
  unfold decode at h
  split at h
  -- No operation is read from an unassigned code.
  case h_31 => cases h
  all_goals
    rename_i hcode
    obtain rfl := Decoded.instr.inj h
    refine ⟨hcode.symm, ?_⟩
  -- CONSTRUCT
  case h_1 =>
    have hmask : (encode (decodeConstruct r)).present = r.present := by
      simp only [decodeConstruct, encode, isSome_givenIf, presentMask_getLsbD]
    refine ⟨rfl, rfl, hmask, ?_⟩
    rw [hmask]
    exact ⟨(getD_givenIf · ..), (getD_givenIf · ..), (getD_givenIf · ..), (getD_givenIf · ..), (getD_givenIf · ..)⟩
  -- FLAGS.SET
  case h_7 => exact afsOf_getLsbD r.afs
  -- The other formats use no port or one.
  all_goals trivial

/-- CONSTRUCT is read from its two counters, the present mask and the ports of the operands that are given. -/
theorem decodeConstruct_congr {r q : Request} (hseq : r.seq = q.seq) (hack : r.ack = q.ack)
    (hpresent : r.present = q.present) (hflags : r.present.getLsbD 0 = true → r.flags = q.flags)
    (hwindow : r.present.getLsbD 1 = true → r.window = q.window)
    (hdlen : r.present.getLsbD 2 = true → r.dlen = q.dlen) (hpay : r.present.getLsbD 3 = true → r.pay = q.pay)
    (hcsum : r.present.getLsbD 4 = true → r.csum = q.csum) : decodeConstruct r = decodeConstruct q := by
  simp only [decodeConstruct, hseq, hack, ← hpresent, givenIf_congr hflags, givenIf_congr hwindow,
    givenIf_congr hdlen, givenIf_congr hpay, givenIf_congr hcsum]

/-- Requests that agree on the used ports decode alike, format by format. -/
theorem decode_congr {r q : Request} (h : r.sameUsedPorts q) : decode r = decode q := by
  obtain ⟨hop, hports⟩ := h
  unfold decode
  rw [← hop]
  split
  -- An unassigned code uses no port.
  case h_31 => rfl
  all_goals
    rename_i hcode
    rewrite [hcode] at hports
  -- CONS
  case h_1 =>
    obtain ⟨hseq, hack, hpresent, hflags, hwindow, hdlen, hpay, hcsum⟩ := hports
    rw [decodeConstruct_congr hseq hack hpresent hflags hwindow hdlen hpay hcsum]
  -- BYTES
  case h_2 | h_24 | h_30 => rw [show r.data = q.data from hports]
  -- B3
  case h_7 => rw [show r.afs = q.afs from hports]
  -- U16
  case h_9 | h_10 | h_18 | h_19 | h_22 | h_23 | h_26 | h_27 => rw [show r.v16 = q.v16 from hports]
  -- U8
  case h_20 | h_21 | h_28 | h_29 => rw [show r.v8 = q.v8 from hports]
  -- N
  all_goals rfl

/-- An operation whose byte sequence the BYTES port carries within its range is well-formed. -/
theorem wellFormed_of_sameUsedPorts {i : Instr} {r : Request} (h : (encode i).sameUsedPorts r)
    (hdata : r.data.length ≤ 65535) : i.wellFormed = true := by
  obtain ⟨_, hports⟩ := h
  cases i with
  | decodeWire bytes | wrPay bytes | setPay bytes =>
    have hbytes : bytes = r.data := hports
    exact (fitsPort_iff bytes).mpr (hbytes ▸ hdata)
  | _ => rfl

/-- Settles O2: the code is one of the used ports. -/
theorem decodedOperationsFitThePorts : Obligations.DecodedOperationsFitThePorts := by
  intro r i h
  have hports : (encode i).sameUsedPorts r := sameUsedPorts_of_decode h
  have hop : i.opcode = r.op := (encode_op i).symm.trans hports.1
  exact ⟨hop, hop ▸ opRow_opcode_isSome i, hports, wellFormed_of_sameUsedPorts hports⟩

/-- Settles O3: a step depends on a request through what it decodes to. -/
theorem ignoredPortsHaveNoInfluence : Obligations.IgnoredPortsHaveNoInfluence := by
  intro s r q rest h
  rw [step_present rfl, step_present rfl, execRequest, execRequest, decode_congr h]

/-- Settles O5. -/
theorem sampleRequestsDecode : Obligations.SampleRequestsDecode :=
  ⟨rfl, rfl, rfl, rfl, rfl, rfl, rfl, rfl, rfl⟩

/-! ### Results -/

/-- The result of a performed operation is of the kind its row of R55 gives. -/
theorem opRow_opcode_result (i : Instr) (p : Packet) :
    (opRow i.opcode).map OpRow.result = some (resultAfter i p).kind := by
  cases i <;> rfl

/-- What an operation that answers OK has done: it was performed, and the answer is its result. -/
theorem exec_ok {i : Instr} {s t : State} {res : Result} (h : exec i s = .next t) (hok : t.resp = some ⟨.ok, res⟩) :
    errorStatus i s.valid = none ∧ t = (s.load (packetAfter i s.pkt)).answer .ok (resultAfter i s.pkt) ∧
      resultAfter i s.pkt = res := by
  obtain ⟨st, herr, rfl⟩ | ⟨hnone, rfl⟩ := (exec_next i s t).mp h
  · obtain ⟨rfl, _⟩ : st = .ok ∧ Result.none = res := by simpa using hok
    exact absurd herr (errorStatus_ne_ok i s.valid)
  · exact ⟨hnone, rfl, by simpa using hok⟩

/-- Settles O18. -/
theorem resultsHaveTheirKind : Obligations.ResultsHaveTheirKind := by
  intro i s t res h hok
  obtain ⟨_, _, rfl⟩ := exec_ok h hok
  exact opRow_opcode_result i s.pkt

/-! ### The wire image -/

/-- The payload follows the ten header bytes. -/
theorem wireImage_payload (p : Packet) (i : Nat) : (wireImage p)[10 + i]? = p.pay[i]? := by
  rw [wireImage, List.getElem?_append_right (by simp), headerBytes_length, Nat.add_sub_cancel_left]

/-- A 16-bit value is its two bytes, the high one first (spec/00_scope.md R7). -/
theorem toNat_eq_bytes (v : Half) :
    v.toNat = (v.extractLsb' 8 8).toNat * 256 + (v.extractLsb' 0 8).toNat := by
  have hv := v.isLt
  simp only [BitVec.extractLsb'_toNat, Nat.shiftRight_eq_div_pow]
  omega

/-- The header as one big-endian number: in base 256 each of its fields has the weight of the bytes after it. -/
theorem headerBytes_number (p : Packet) :
    (headerBytes p).foldl (fun n b => n * 256 + b.toNat) 0 =
      p.seq.toNat * 2 ^ 64 + p.ack.toNat * 2 ^ 48 + p.flags.toNat * 2 ^ 40 + p.window.toNat * 2 ^ 32 +
        p.dlen.toNat * 2 ^ 16 + p.csum.toNat := by
  rw [toNat_eq_bytes p.seq, toNat_eq_bytes p.ack, toNat_eq_bytes p.dlen, toNat_eq_bytes p.csum]
  simp only [headerBytes, be16, List.cons_append, List.nil_append, List.foldl_cons, List.foldl_nil]
  ring

/-- Settles O26. -/
theorem wireImageLayout : Obligations.WireImageLayout := fun p =>
  ⟨wireImage_length p, rfl, rfl, rfl, rfl, rfl, rfl, rfl, rfl, rfl, rfl, fun i _ => wireImage_payload p i,
    headerBytes_number p⟩

/-- Reading an image back gives each field from its bytes (spec/30_encoding.md R49). -/
theorem parseWire_wireImage (p : Packet) : parseWire (wireImage p) = p := by
  have hfields : parseWire (wireImage p) =
      { seq := fromBe16 (p.seq.extractLsb' 8 8) (p.seq.extractLsb' 0 8)
        ack := fromBe16 (p.ack.extractLsb' 8 8) (p.ack.extractLsb' 0 8)
        flags := p.flags
        window := p.window
        dlen := fromBe16 (p.dlen.extractLsb' 8 8) (p.dlen.extractLsb' 0 8)
        csum := fromBe16 (p.csum.extractLsb' 8 8) (p.csum.extractLsb' 0 8)
        pay := p.pay } := rfl
  rw [hfields, fromBe16_be16, fromBe16_be16, fromBe16_be16, fromBe16_be16]

/-- The first `n` bytes of a sequence that has them, one by one. -/
theorem take_eq_map_getD {raw : List Byte} {n : Nat} (h : n ≤ raw.length) :
    raw.take n = (List.range n).map (raw.getD · 0) := by
  refine List.ext_getElem (by simpa using h) fun i hi _ => ?_
  have hlt : i < raw.length := by
    rw [List.length_take] at hi
    omega
  simp [hlt]

/-- The header written from a read image is the image's first ten bytes. -/
theorem headerBytes_parseWire {raw : List Byte} (h : 10 ≤ raw.length) : headerBytes (parseWire raw) = raw.take 10 := by
  rw [take_eq_map_getD h]
  simp only [headerBytes, parseWire, be16_fromBe16]
  rfl

/-- Settles O27. -/
theorem parseAndSerialiseAreInverse : Obligations.ParseAndSerialiseAreInverse := by
  refine ⟨parseWire_wireImage, fun raw h => ?_⟩
  rw [wireImage, headerBytes_parseWire h, parseWire_pay, List.take_append_drop]

/-! ### Pseudo-operations -/

/-- A list of operations runs on after its first, if nothing keeps that from being performed. -/
theorem execAll_cons_of_performed {i : Instr} {s : State} (h : errorStatus i s.valid = none) (is : List Instr) :
    execAll (i :: is) s = execAll is ((s.load (packetAfter i s.pkt)).answer .ok (resultAfter i s.pkt)) :=
  execAll_cons_of_exec ((exec_next ..).mpr (.inr ⟨h, rfl⟩)) is

/-- With a packet only the operands can keep an operation from being performed. -/
theorem errorStatus_of_valid {s : State} (h : s.valid = true) (i : Instr) :
    errorStatus i s.valid = operandError i := by
  rw [h]
  rfl

theorem checksumValid_updateChecksum (p : Packet) : checksumValid (updateChecksum p) = true := by
  simp [checksumValid]

/-- A packet loaded with its computed checksum is send-ready (spec/70_reset_and_hazards.md R166). -/
theorem sendReady_of_updateChecksum (s : State) (p : Packet) (st : Status) (r : Result) :
    ((s.load (updateChecksum p)).answer st r).sendReady = true :=
  checksumValid_updateChecksum p

/-- A length in the payload bound is the value of a 16-bit field. -/
theorem toNat_ofNat_of_memory_wf {m : List Byte} (h : Memory.wf m) : (BitVec.ofNat 16 m.length).toNat = m.length := by
  have hlen : m.length ≤ 1008 := h
  rw [BitVec.toNat_ofNat, Nat.mod_eq_of_lt (by omega)]

/-- The ending of R125 writes DLEN and CSUM alone. -/
theorem setFinish_frame (p : Packet) :
    setFinish p = { p with dlen := (setFinish p).dlen, csum := (setFinish p).csum } := by
  rw [setFinish_dlen, setFinish_csum]
  rfl

/-- SYNC by a set of the window to its own value is the ending of R125 alone. -/
theorem execAll_pseudoSync {s : State} (h : s.valid = true) :
    execAll (pseudoSync s.pkt.window) s = .next ((s.load (setFinish s.pkt)).answer .ok .none) :=
  execAll_cons_of_performed (errorStatus_of_valid h _) []

/-- SYNC by direct writes does the two halves of the ending of R125, one after the other. -/
theorem execAll_pseudoSyncDirect {s : State} (h : s.valid = true) :
    execAll (pseudoSyncDirect (BitVec.ofNat 16 s.pkt.pay.length)) s =
      .next ((s.load (setFinish s.pkt)).answer .ok .none) := by
  rw [pseudoSyncDirect, execAll_cons_of_performed (errorStatus_of_valid h _)]
  exact execAll_cons_of_performed (errorStatus_of_valid rfl _) []

/-- STRIP.ACK empties the payload, zeroes DLEN, and ends with the checksum update of FLAGS.SET. -/
theorem execAll_pseudoStripAck {s : State} (h : s.valid = true) :
    execAll pseudoStripAck s =
      .next ((s.load (updateChecksum
        { s.pkt with flags := setFlagBits s.pkt.flags true false false, dlen := 0, pay := [] })).answer .ok .none) := by
  rw [pseudoStripAck, execAll_cons_of_performed (errorStatus_of_valid h _),
    execAll_cons_of_performed (errorStatus_of_valid rfl _)]
  exact execAll_cons_of_performed (errorStatus_of_valid rfl _) []

/-- The flags of a pure ACK: the reserved bits that were there, and ACK. -/
theorem setFlagBits_ack (x : Byte) : setFlagBits x true false false = (x &&& 0xEC) ||| 0x10 := by
  simp [setFlagBits, flagReserved, flagAck]

/-- FRESH needs no packet, and its payload, the default, fits. Its omitted checksum is computed. -/
theorem execAll_pseudoFresh (seq ack : Half) (s : State) :
    execAll (pseudoFresh seq ack) s =
      .next ((s.load (updateChecksum (constructOperands seq ack none none none none none))).answer .ok .none) := by
  have hfits : errorStatus (.construct seq ack none none none none none) s.valid = none := by
    simp [errorStatus, loads, operandError, payloadError]
  exact execAll_cons_of_performed hfits []

/-- Settles O60. -/
theorem pseudoOperationsDoWhatTheySay : Obligations.PseudoOperationsDoWhatTheySay := by
  refine ⟨fun s hvalid hwf => ?_, fun s hvalid => ?_, fun seq ack s => ?_⟩
  · exact ⟨_, execAll_pseudoSync hvalid, execAll_pseudoSyncDirect hvalid, toNat_ofNat_of_memory_wf hwf,
      sendReady_of_updateChecksum s (refreshLength s.pkt) _ _, setFinish_frame s.pkt⟩
  · exact ⟨_, execAll_pseudoStripAck hvalid, sendReady_of_updateChecksum .., rfl, rfl, setFlagBits_ack s.pkt.flags,
      rfl, rfl, rfl⟩
  · exact ⟨_, execAll_pseudoFresh seq ack s, sendReady_of_updateChecksum .., rfl, rfl, rfl, rfl, rfl, rfl⟩

end Sys2Proof.Machine

/-!
PROOFS, family 40_crc16. A bit step is a shift and the exclusive or of the feedback taps, so it is linear and loses
nothing. From that: the two other forms, the laws, and the polynomial. Then a packet's checksum, read off its image.
-/
namespace Sys2Proof.Machine

/-! ### One bit step -/

/-- What the feedback bit puts on the taps (spec/40_crc16.md R67). -/
def feedback (fb : Bool) : Half := if fb then crcPoly else 0

theorem feedback_xor (a b : Bool) : feedback (a ^^ b) = feedback a ^^^ feedback b := by
  cases a <;> cases b <;> rfl

/-- The taps are at bits 0, 5 and 12. -/
theorem getLsbD_feedback (fb : Bool) {j : Nat} (hj : j < 16) :
    (feedback fb).getLsbD j = (fb && decide (j = 0 ∨ j = 5 ∨ j = 12)) := by
  revert j
  cases fb <;> decide

theorem crcSerialBit_eq (c : Half) (d : Bool) :
    crcSerialBit c d = c <<< 1 ^^^ feedback (c.getLsbD 15 ^^ d) := by
  rw [crcSerialBit, feedback]
  cases c.getLsbD 15 ^^ d <;> simp

/-- A bit step of R66 is a bit time of R67 whose message bit has entered already. -/
theorem crcBit_eq (c : Half) : crcBit c = c <<< 1 ^^^ feedback (c.getLsbD 15) := by
  rw [crcBit, feedback]
  cases c.getLsbD 15 <;> simp

/-- The register equations of R67. -/
theorem getLsbD_crcSerialBit (c : Half) (d : Bool) {j : Nat} (hj : j < 16) :
    (crcSerialBit c d).getLsbD j =
      if j = 0 then c.getLsbD 15 ^^ d
      else if j = 5 ∨ j = 12 then c.getLsbD (j - 1) ^^ (c.getLsbD 15 ^^ d)
      else c.getLsbD (j - 1) := by
  rw [crcSerialBit_eq, BitVec.getLsbD_xor, getLsbD_feedback _ hj, BitVec.getLsbD_shiftLeft]
  by_cases h0 : j = 0
  · simp [h0]
  · have h1 : ¬ j < 1 := by omega
    by_cases htap : j = 5 ∨ j = 12 <;> simp [h0, h1, hj, htap]

/-- What is in the register beside `c` is shifted on, and its top bit is fed in as a message bit. -/
theorem crcBit_xor_eq_crcSerialBit (c w : Half) :
    crcBit (c ^^^ w) = crcSerialBit c (w.getLsbD 15) ^^^ w <<< 1 := by
  rw [crcBit_eq, crcSerialBit_eq, BitVec.getLsbD_xor, BitVec.shiftLeft_xor_distrib]
  ac_rfl

theorem crcBit_xor (c d : Half) : crcBit (c ^^^ d) = crcBit c ^^^ crcBit d := by
  rw [crcBit_eq, crcBit_eq c, crcBit_eq d, BitVec.getLsbD_xor, feedback_xor, BitVec.shiftLeft_xor_distrib]
  ac_rfl

theorem getLsbD_shiftLeft_one (c : Half) {j : Nat} (h : j + 1 < 16) :
    (c <<< 1).getLsbD (j + 1) = c.getLsbD j := by
  simp [h, Nat.lt_of_succ_lt h]

/-- A bit step keeps the bit it shifts out. -/
theorem getLsbD_zero_crcBit (c : Half) : (crcBit c).getLsbD 0 = c.getLsbD 15 := by
  have hserial : crcBit c = crcSerialBit c false := by rw [crcBit_eq, crcSerialBit_eq, Bool.xor_false]
  rw [hserial, getLsbD_crcSerialBit c false (by decide), if_pos rfl, Bool.xor_false]

/-- The top bit is read off bit 0, and the rest off the shifted register. -/
theorem crcBit_injective : Function.Injective crcBit := by
  intro c d h
  have htop : c.getLsbD 15 = d.getLsbD 15 := by rw [← getLsbD_zero_crcBit, h, getLsbD_zero_crcBit]
  have hshift : c <<< 1 = d <<< 1 := by
    rw [crcBit_eq, crcBit_eq, htop] at h
    exact (BitVec.xor_left_inj _).mp h
  refine BitVec.eq_of_getLsbD_eq fun j hj => ?_
  by_cases hj15 : j = 15
  · rw [hj15, htop]
  · have hlt : j + 1 < 16 := by omega
    rw [← getLsbD_shiftLeft_one c hlt, hshift, getLsbD_shiftLeft_one d hlt]

/-! ### Bytes and byte sequences -/

theorem crcBits_xor (n : Nat) (c d : Half) : crcBits n (c ^^^ d) = crcBits n c ^^^ crcBits n d := by
  induction n generalizing c d with
  | zero => rfl
  | succ n ih => rw [crcBits_succ, crcBit_xor, ih, crcBits_succ, crcBits_succ]

theorem crcBits_injective (n : Nat) : Function.Injective (crcBits n) := by
  induction n with
  | zero => exact Function.injective_id
  | succ n ih => exact ih.comp crcBit_injective

theorem crcByte_xor (c d : Half) (a b : Byte) : crcByte (c ^^^ d) (a ^^^ b) = crcByte c a ^^^ crcByte d b := by
  have henter : (a ^^^ b).zeroExtend 16 <<< 8 = a.zeroExtend 16 <<< 8 ^^^ b.zeroExtend 16 <<< 8 := by
    rw [BitVec.zeroExtend_eq_setWidth, BitVec.setWidth_xor, BitVec.shiftLeft_xor_distrib]
  rw [crcByte, crcByte, crcByte, ← crcBits_xor, henter]
  congr 1
  ac_rfl

theorem crcByte_zero_zero : crcByte 0 0 = 0 := by decide

theorem crcByte_injective_left (b : Byte) : Function.Injective (crcByte · b) := fun _ _ h =>
  (BitVec.xor_left_inj _).mp (crcBits_injective 8 h)

/-- The byte enters whole, in the high half. -/
theorem extractLsb'_enter (b : Byte) : (b.zeroExtend 16 <<< 8).extractLsb' 8 8 = b := by
  revert b
  decide

theorem crcByte_injective_right (c : Half) : Function.Injective (crcByte c) := fun a b h => by
  have henter := (BitVec.xor_right_inj _).mp (crcBits_injective 8 h)
  rw [← extractLsb'_enter a, henter, extractLsb'_enter]

theorem crc16From_append (c : Half) (a b : List Byte) : crc16From c (a ++ b) = crc16From (crc16From c a) b := by
  induction a generalizing c with
  | nil => rfl
  | cons x a ih => exact ih (crcByte c x)

theorem crc16From_injective (s : List Byte) : Function.Injective (crc16From · s) := by
  induction s with
  | nil => exact Function.injective_id
  | cons b s ih => exact ih.comp (crcByte_injective_left b)

theorem crc16From_xorBytes {a b : List Byte} (h : a.length = b.length) (c d : Half) :
    crc16From (c ^^^ d) (xorBytes a b) = crc16From c a ^^^ crc16From d b := by
  induction a generalizing b c d with
  | nil =>
    obtain rfl := List.length_eq_zero_iff.mp h.symm
    rfl
  | cons x a ih =>
    cases b with
    | nil => cases h
    | cons y b =>
      rw [xorBytes, List.zipWith_cons_cons, crc16From_cons, crcByte_xor]
      exact ih (Nat.succ.inj h) _ _

/-- Zero bytes leave the zero register. -/
theorem crc16From_zeros (n : Nat) : crc16From 0 (List.replicate n 0x00) = 0 := by
  induction n with
  | zero => rfl
  | succ n ih => rw [List.replicate_succ, crc16From_cons, crcByte_zero_zero, ih]

/-- Settles O30. -/
theorem crcStreams : Obligations.CrcStreams :=
  ⟨fun _ => rfl, crc16From_append crcInit⟩

/-- Settles O31. -/
theorem crcIgnoresLeadingZeros : Obligations.CrcIgnoresLeadingZeros := by
  refine ⟨rfl, fun n s => ?_⟩
  rw [crc16, crcInit, crc16From_append, crc16From_zeros]
  rfl

/-- Settles O32: the seed is the exclusive or of two zero seeds. -/
theorem crcIsLinear : Obligations.CrcIsLinear := fun _ _ h => crc16From_xorBytes h 0 0

/-! ### The bit-serial and the table-driven form -/

/-- The `n` top bits of a register, in the order in which they are shifted out. -/
def topBits : Nat → Half → List Bool
  | 0, _ => []
  | n + 1, w => w.getLsbD 15 :: topBits n (w <<< 1)

/-- The bits shifted out of the high half are those of its byte, bit 7 first. -/
theorem topBits_eight (w : Half) : topBits 8 w = bitsOfByte (w.extractLsb' 8 8) := by
  simp [topBits, bitsOfByte]

/-- What is in the register beside `c` acts as the message bits it is shifted out as. -/
theorem crcBits_xor_eq_foldl (n : Nat) (c w : Half) :
    crcBits n (c ^^^ w) = (topBits n w).foldl crcSerialBit c ^^^ w <<< n := by
  induction n generalizing c w with
  | zero => simp [topBits]
  | succ n ih =>
    rw [crcBits_succ, crcBit_xor_eq_crcSerialBit, ih, topBits, List.foldl_cons, ← BitVec.shiftLeft_add, Nat.add_comm]

/-- A byte is taken by eight bit times. -/
theorem foldl_crcSerialBit_bitsOfByte (c : Half) (b : Byte) :
    (bitsOfByte b).foldl crcSerialBit c = crcByte c b := by
  have hout : (b.zeroExtend 16 <<< 8) <<< 8 = 0#16 := by
    rw [← BitVec.shiftLeft_add]
    exact BitVec.shiftLeft_eq_zero (Nat.le_refl 16)
  rw [crcByte, crcBits_xor_eq_foldl, topBits_eight, extractLsb'_enter, hout, BitVec.xor_zero]

theorem foldl_crcSerialBit_bitsOfBytes (s : List Byte) (c : Half) :
    (bitsOfBytes s).foldl crcSerialBit c = crc16From c s := by
  induction s generalizing c with
  | nil => rfl
  | cons b s ih =>
    rw [bitsOfBytes, List.flatMap_cons, List.foldl_append, foldl_crcSerialBit_bitsOfByte]
    exact ih (crcByte c b)

/-- Settles O28. -/
theorem crcSerialFormAgrees : Obligations.CrcSerialFormAgrees :=
  ⟨fun s => foldl_crcSerialBit_bitsOfBytes s crcInit, fun c d _ => getLsbD_crcSerialBit c d⟩

/-- The low byte is shifted up, and the high one with the message byte selects the table entry. -/
theorem crcTableStep_eq (c : Half) (b : Byte) : crcTableStep c b = crcByte c b := by
  have hhigh : (c ^^^ b.zeroExtend 16 <<< 8).extractLsb' 8 8 = c.extractLsb' 8 8 ^^^ b := by
    rw [BitVec.extractLsb'_xor, extractLsb'_enter]
  have hlow : (c ^^^ b.zeroExtend 16 <<< 8) <<< 8 = c <<< 8 := by
    rw [BitVec.shiftLeft_xor_distrib, ← BitVec.shiftLeft_add, BitVec.shiftLeft_eq_zero (Nat.le_refl 16),
      BitVec.xor_zero]
  calc crcTableStep c b
      = c <<< 8 ^^^ crcByte 0#16 (c.extractLsb' 8 8 ^^^ b) := rfl
    _ = crcByte 0#16 (c.extractLsb' 8 8 ^^^ b) ^^^ c <<< 8 := BitVec.xor_comm ..
    _ = crcBits 8 (0#16 ^^^ (c ^^^ b.zeroExtend 16 <<< 8)) := by
      rw [crcBits_xor_eq_foldl, topBits_eight, hhigh, foldl_crcSerialBit_bitsOfByte, hlow]
    _ = crcByte c b := by rw [BitVec.zero_xor, crcByte]

theorem foldl_crcTableStep (s : List Byte) (c : Half) : s.foldl crcTableStep c = crc16From c s := by
  induction s generalizing c with
  | nil => rfl
  | cons b s ih => rw [List.foldl_cons, crcTableStep_eq, ih, crc16From_cons]

/-- Settles O29. -/
theorem crcTableFormAgrees : Obligations.CrcTableFormAgrees := fun s => foldl_crcTableStep s crcInit

/-! ### Single bits -/

theorem xor_bit_ne (b : Byte) (k : Fin 8) : b ^^^ (1#8 <<< k.val) ≠ b := by
  have hbit : 1#8 <<< k.val ≠ 0 := by
    revert k
    decide
  intro h
  exact hbit ((BitVec.xor_right_inj _).mp (h.trans BitVec.xor_zero.symm))

/-- The registers differ after the byte that was changed, and stay different. -/
theorem crc16_flipBit_ne {s : List Byte} {i : Nat} (h : i < s.length) (k : Fin 8) :
    crc16 (flipBit s i k) ≠ crc16 s := by
  obtain ⟨pre, b, post, hs, -, hflip⟩ := List.exists_of_modify (fun b : Byte => b ^^^ (1#8 <<< k.val)) h
  rw [flipBit, hflip, hs, crc16, crc16, crc16From_append, crc16From_append, crc16From_cons, crc16From_cons]
  exact (crc16From_injective post).ne ((crcByte_injective_right _).ne (xor_bit_ne b k))

/-- Settles O33. -/
theorem crcDetectsSingleBitErrors : Obligations.CrcDetectsSingleBitErrors := fun _ _ k h => crc16_flipBit_ne h k

/-! ### The polynomial -/

section
open Polynomial

/-- The generator polynomial of R68. -/
noncomputable def genPoly : (ZMod 2)[X] := X ^ 16 + X ^ 12 + X ^ 5 + 1

/-- The polynomial of a register: bit `j` is the coefficient of `x^j`. -/
noncomputable def regPoly (c : Half) : (ZMod 2)[X] := ∑ j ∈ Finset.range 16, if c.getLsbD j then X ^ j else 0

/-- The message polynomial of R68: the first bit is the highest coefficient. -/
noncomputable def msgPoly (l : List Bool) : (ZMod 2)[X] :=
  ∑ k ∈ Finset.range l.length, if l.getD k false then X ^ (l.length - 1 - k) else 0

theorem genPoly_degree_tail : (X ^ 12 + X ^ 5 + 1 : (ZMod 2)[X]).degree < 16 := by
  have h : (X ^ 12 + X ^ 5 + 1 : (ZMod 2)[X]).degree ≤ 12 := by compute_degree
  exact h.trans_lt (by norm_num)

theorem genPoly_eq : genPoly = X ^ 16 + (X ^ 12 + X ^ 5 + 1) := by
  rw [genPoly, add_assoc, add_assoc, add_assoc]

theorem genPoly_monic : genPoly.Monic := genPoly_eq ▸ monic_X_pow_add genPoly_degree_tail

theorem genPoly_degree : genPoly.degree = 16 := by
  rw [genPoly_eq, degree_add_eq_left_of_degree_lt] <;> rw [degree_X_pow]
  · rfl
  · exact genPoly_degree_tail

theorem regPoly_degree_lt (c : Half) : (regPoly c).degree < 16 := by
  refine mem_degreeLT.mp (Submodule.sum_mem _ fun j hj => ?_)
  split
  · rw [mem_degreeLT, degree_X_pow]
    exact_mod_cast Finset.mem_range.mp hj
  · exact Submodule.zero_mem _

/-- Exclusive or of bits is addition over GF(2). -/
theorem ite_xor (a b : Bool) (p : (ZMod 2)[X]) :
    (if (a ^^ b) = true then p else 0) = (if a = true then p else 0) + if b = true then p else 0 := by
  cases a <;> cases b <;> simp [CharTwo.add_self_eq_zero]

theorem regPoly_zero : regPoly 0 = 0 := by simp [regPoly]

theorem regPoly_xor (c d : Half) : regPoly (c ^^^ d) = regPoly c + regPoly d := by
  simp only [regPoly, BitVec.getLsbD_xor, ite_xor, Finset.sum_add_distrib]

/-- A shift multiplies by `x`, but for the bit shifted out. -/
theorem regPoly_shiftLeft (c : Half) :
    regPoly (c <<< 1) = X * regPoly c + if c.getLsbD 15 = true then X ^ 16 else 0 := by
  have hlow : regPoly (c <<< 1) = ∑ j ∈ Finset.range 15, X * if c.getLsbD j = true then X ^ j else 0 := by
    rw [regPoly, Finset.sum_range_succ', if_neg (by simp), add_zero]
    refine Finset.sum_congr rfl fun j hj => ?_
    have hlt : j + 1 < 16 := Nat.succ_lt_succ (Finset.mem_range.mp hj)
    rw [getLsbD_shiftLeft_one c hlt, mul_ite, mul_zero, pow_succ']
  have hhigh : X * regPoly c = regPoly (c <<< 1) + if c.getLsbD 15 = true then X ^ 16 else 0 := by
    rw [hlow, regPoly, Finset.sum_range_succ, mul_add, Finset.mul_sum, mul_ite, mul_zero, ← pow_succ']
  rw [hhigh, add_assoc, CharTwo.add_self_eq_zero, add_zero]

theorem regPoly_feedback (fb : Bool) : regPoly (feedback fb) = if fb = true then X ^ 12 + X ^ 5 + 1 else 0 := by
  cases fb
  · exact regPoly_zero
  · simp [regPoly, Finset.sum_range_succ, feedback, crcPoly]
    ring

/-- A bit time multiplies by `x`, adds the message bit at `x^16`, and takes off `G(x)` where the feedback bit is set. -/
theorem regPoly_crcSerialBit (c : Half) (d : Bool) :
    regPoly (crcSerialBit c d) =
      X * regPoly c + (if d = true then X ^ 16 else 0) + if (c.getLsbD 15 ^^ d) = true then genPoly else 0 := by
  have htaps : (if (c.getLsbD 15 ^^ d) = true then genPoly else 0) =
      (if (c.getLsbD 15 ^^ d) = true then X ^ 16 else 0) + regPoly (feedback (c.getLsbD 15 ^^ d)) := by
    rw [regPoly_feedback, genPoly_eq]
    split <;> simp
  have hcancel := CharTwo.add_self_eq_zero (if d = true then (X ^ 16 : (ZMod 2)[X]) else 0)
  rw [crcSerialBit_eq, regPoly_xor, regPoly_shiftLeft, htaps, ite_xor]
  linear_combination -hcancel

theorem msgPoly_cons (d : Bool) (l : List Bool) :
    msgPoly (d :: l) = (if d = true then X ^ l.length else 0) + msgPoly l := by
  rw [msgPoly, List.length_cons, Finset.sum_range_succ', add_comm]
  congr 1
  refine Finset.sum_congr rfl fun k _ => ?_
  rw [List.getD_cons_succ, Nat.add_sub_cancel, Nat.sub_sub, Nat.add_comm 1 k]

/-- Modulo `G(x)`, taking the bits `l` multiplies the register by `x^|l|` and adds the message times `x^16`. -/
theorem genPoly_dvd_foldl (l : List Bool) (c : Half) :
    genPoly ∣ regPoly (l.foldl crcSerialBit c) - (regPoly c * X ^ l.length + msgPoly l * X ^ 16) := by
  induction l generalizing c with
  | nil => simp [msgPoly]
  | cons d l ih =>
    have hstep : genPoly ∣ regPoly (crcSerialBit c d) - (X * regPoly c + if d = true then X ^ 16 else 0) := by
      rw [regPoly_crcSerialBit, add_sub_cancel_left]
      split
      · exact dvd_rfl
      · exact dvd_zero _
    have hsplit :
        regPoly ((d :: l).foldl crcSerialBit c) - (regPoly c * X ^ (d :: l).length + msgPoly (d :: l) * X ^ 16) =
          (regPoly (l.foldl crcSerialBit (crcSerialBit c d)) -
            (regPoly (crcSerialBit c d) * X ^ l.length + msgPoly l * X ^ 16)) +
          (regPoly (crcSerialBit c d) - (X * regPoly c + if d = true then X ^ 16 else 0)) * X ^ l.length := by
      rw [msgPoly_cons, List.foldl_cons, List.length_cons]
      split <;> ring
    rw [hsplit]
    exact (ih _).add (hstep.mul_right _)

theorem bitsOfBytes_length (s : List Byte) : (bitsOfBytes s).length = 8 * s.length := by
  induction s with
  | nil => rfl
  | cons b s ih =>
    rw [bitsOfBytes, List.flatMap_cons, List.length_append, ← bitsOfBytes, ih, List.length_cons]
    simp [bitsOfByte]
    omega

/-- The register is congruent to the shifted message, and its degree is below that of `G(x)`. -/
theorem regPoly_crc16 (s : List Byte) : regPoly (crc16 s) = (msgPoly (bitsOfBytes s) * X ^ 16) %ₘ genPoly := by
  obtain ⟨q, hq⟩ := genPoly_dvd_foldl (bitsOfBytes s) crcInit
  rw [foldl_crcSerialBit_bitsOfBytes, ← crc16, crcInit, regPoly_zero, zero_mul, zero_add] at hq
  have hdiv : regPoly (crc16 s) + genPoly * -q = msgPoly (bitsOfBytes s) * X ^ 16 := by
    linear_combination hq
  have hdeg : (regPoly (crc16 s)).degree < genPoly.degree := by
    rw [genPoly_degree]
    exact regPoly_degree_lt _
  exact (div_modByMonic_unique _ _ genPoly_monic ⟨hdiv, hdeg⟩).2.symm

end

/-- Settles O34. -/
theorem crcIsThePolynomialRemainder : Obligations.CrcIsThePolynomialRemainder := by
  intro s
  rw [← bitsOfBytes_length]
  exact regPoly_crc16 s

/-! ### The checksum of a packet -/

theorem be16_zero : be16 0 = [0x00, 0x00] := rfl

/-- The image with a zero checksum, byte by byte (spec/40_crc16.md R72). -/
theorem wireImage_zero_csum (p : Packet) :
    wireImage { p with csum := 0 } =
      [p.seq.extractLsb' 8 8, p.seq.extractLsb' 0 8, p.ack.extractLsb' 8 8, p.ack.extractLsb' 0 8, p.flags, p.window,
        p.dlen.extractLsb' 8 8, p.dlen.extractLsb' 0 8, 0x00, 0x00] ++ p.pay := by
  rw [wireImage, headerBytes, be16_zero]
  rfl

/-- Settles O35. -/
theorem checksumIsTheCrcWithTheFieldZeroed : Obligations.ChecksumIsTheCrcWithTheFieldZeroed := by
  intro p
  rw [computeChecksum, params_crc16, wireImage_zero_csum]

/-- The checksum field of an image: its bytes 8 and 9 (spec/30_encoding.md R46). -/
def checksumField (raw : List Byte) : List Byte := [raw.getD 8 0, raw.getD 9 0]

/-- The image with zeros in its checksum field. -/
def zeroField (raw : List Byte) : List Byte := (raw.modify 8 fun _ => 0).modify 9 fun _ => 0

theorem zeroField_length (raw : List Byte) : (zeroField raw).length = raw.length := by
  simp [zeroField]

theorem checksumField_wireImage (p : Packet) : checksumField (wireImage p) = be16 p.csum := rfl

theorem zeroField_wireImage (p : Packet) : zeroField (wireImage p) = wireImage { p with csum := 0 } := by
  rw [wireImage_zero_csum]
  rfl

theorem be16_injective : Function.Injective be16 := by
  intro v w h
  obtain ⟨hhigh, hlow⟩ : v.extractLsb' 8 8 = w.extractLsb' 8 8 ∧ v.extractLsb' 0 8 = w.extractLsb' 0 8 := by
    simpa [be16] using h
  rw [← fromBe16_be16 v, hhigh, hlow, fromBe16_be16]

/-- A valid checksum, read off the image. -/
theorem checksumValid_iff (p : Packet) :
    checksumValid p = true ↔ checksumField (wireImage p) = be16 (crc16 (zeroField (wireImage p))) := by
  rw [checksumField_wireImage, zeroField_wireImage, be16_injective.eq_iff, checksumValid, decide_eq_true_iff,
    computeChecksum, params_crc16]

theorem flipBit_length (l : List Byte) (i : Nat) (k : Fin 8) : (flipBit l i k).length = l.length :=
  List.length_modify ..

theorem flipBit_getD_of_ne {i j : Nat} (h : i ≠ j) (l : List Byte) (k : Fin 8) :
    (flipBit l i k).getD j 0 = l.getD j 0 := by
  rw [List.getD_eq_getElem?_getD, flipBit, List.getElem?_modify_ne _ _ h, List.getD_eq_getElem?_getD]

theorem flipBit_getD_ne {l : List Byte} {i : Nat} (h : i < l.length) (k : Fin 8) :
    (flipBit l i k).getD i 0 ≠ l.getD i 0 := by
  simpa [flipBit, h] using xor_bit_ne l[i] k

/-- A flip in the checksum field changes the field. -/
theorem checksumField_flipBit_ne {raw : List Byte} {i : Nat} (h : i < raw.length) (hfield : i = 8 ∨ i = 9)
    (k : Fin 8) :
    checksumField (flipBit raw i k) ≠ checksumField raw := by
  intro heq
  obtain ⟨h8, h9⟩ : (flipBit raw i k).getD 8 0 = raw.getD 8 0 ∧ (flipBit raw i k).getD 9 0 = raw.getD 9 0 := by
    simpa [checksumField] using heq
  obtain rfl | rfl := hfield
  · exact flipBit_getD_ne h k h8
  · exact flipBit_getD_ne h k h9

/-- A flip outside the checksum field leaves the field. -/
theorem checksumField_flipBit {i : Nat} (h8 : i ≠ 8) (h9 : i ≠ 9) (raw : List Byte) (k : Fin 8) :
    checksumField (flipBit raw i k) = checksumField raw := by
  rw [checksumField, flipBit_getD_of_ne h8, flipBit_getD_of_ne h9, checksumField]

/-- A flip in the checksum field is not seen once the field is zeroed (spec/40_crc16.md R74). -/
theorem zeroField_flipBit_of_field {i : Nat} (hfield : i = 8 ∨ i = 9) (raw : List Byte) (k : Fin 8) :
    zeroField (flipBit raw i k) = zeroField raw := by
  obtain rfl | rfl := hfield
  · rw [zeroField, flipBit, List.modify_modify_eq]
    rfl
  · rw [zeroField, flipBit, List.modify_modify_ne _ _ _ (by decide : 9 ≠ 8), List.modify_modify_eq]
    rfl

/-- A flip outside the checksum field flips the same bit of the image with the field zeroed. -/
theorem zeroField_flipBit {i : Nat} (h8 : i ≠ 8) (h9 : i ≠ 9) (raw : List Byte) (k : Fin 8) :
    zeroField (flipBit raw i k) = flipBit (zeroField raw) i k := by
  rw [zeroField, flipBit, List.modify_modify_ne _ _ _ h8, List.modify_modify_ne _ _ _ h9, flipBit, zeroField]

/-- A flip changes either the checksum field or the checksum of the rest, and not both. -/
theorem checksumField_flipBit_ne_crc16 {raw : List Byte} {i : Nat} (h : i < raw.length)
    (hvalid : checksumField raw = be16 (crc16 (zeroField raw))) (k : Fin 8) :
    checksumField (flipBit raw i k) ≠ be16 (crc16 (zeroField (flipBit raw i k))) := by
  by_cases hfield : i = 8 ∨ i = 9
  · rw [zeroField_flipBit_of_field hfield, ← hvalid]
    exact checksumField_flipBit_ne h hfield k
  · obtain ⟨h8, h9⟩ := not_or.mp hfield
    rw [checksumField_flipBit h8 h9, zeroField_flipBit h8 h9, hvalid]
    exact be16_injective.ne (crc16_flipBit_ne ((zeroField_length raw).symm ▸ h) k).symm

/-- Settles O36: the flipped image is the image of the packet parsed from it. -/
theorem anyBitFlipFailsVerification : Obligations.AnyBitFlipFailsVerification := by
  intro p i k hvalid hi
  have hlen : 10 ≤ (flipBit (wireImage p) i k).length := by
    rw [flipBit_length, wireImage_length]
    exact Nat.le_add_right ..
  rw [← Bool.not_eq_true, checksumValid_iff, parseAndSerialiseAreInverse.2 _ hlen]
  exact checksumField_flipBit_ne_crc16 hi ((checksumValid_iff p).mp hvalid) k

end Sys2Proof.Machine

/-!
PROOFS, family 41_serdes. The two loaders and ENCODE where they are performed, each with the state it leaves; then the
trips through the wire, which are runs of these, and rest on parsing undoing the image and the other way round.
-/
namespace Sys2Proof.Machine

/-- With a packet an operation that only reads answers with a value of it (spec/20_memory.md R36). -/
theorem exec_readOnly_valid {i : Instr} (hread : readOnly i = true) {s : State} (hvalid : s.valid = true) :
    exec i s = .next (s.answer .ok (resultAfter i s.pkt)) :=
  (exec_of_readOnly hread s).trans (readOut_valid hvalid _)

/-! ### CONSTRUCT -/

/-- The checksum rule of R80 writes CSUM alone. -/
theorem constructChecksum_eq (p : Packet) :
    constructChecksum p = { p with csum := if p.csum = 0x0000 then computeChecksum p else p.csum } := by
  unfold constructChecksum
  split <;> rfl

theorem constructChecksum_of_zero {p : Packet} (h : p.csum = 0x0000) : constructChecksum p = updateChecksum p :=
  if_pos h

theorem constructChecksum_of_ne_zero {p : Packet} (h : p.csum ≠ 0x0000) : constructChecksum p = p :=
  if_neg h

/-- Apart from CSUM the checksum rule leaves the packet. -/
theorem constructChecksum_with_csum (p : Packet) (c : Half) :
    { constructChecksum p with csum := c } = { p with csum := c } := by
  rw [constructChecksum_eq]

/-- A CONSTRUCT whose payload fits is performed, with or without a packet in the slot. -/
theorem exec_construct_fits {pay : Option (List Byte)} (h : (pay.getD []).length ≤ 1008) (seq ack : Half)
    (flags window : Option Byte) (dlen csum : Option Half) (s : State) :
    exec (.construct seq ack flags window dlen pay csum) s =
      .next ((s.load (constructChecksum (constructOperands seq ack flags window dlen pay csum))).answer .ok .none) :=
  (execConstruct_next ..).mpr (.inl ⟨h, rfl⟩)

/-- A CONSTRUCT with all the fields of a packet takes no default: it loads the packet by way of its checksum rule. -/
theorem exec_construct_packet {p : Packet} (h : Memory.wf p.pay) (s : State) :
    exec (.construct p.seq p.ack (some p.flags) (some p.window) (some p.dlen) (some p.pay) (some p.csum)) s =
      .next ((s.load (constructChecksum p)).answer .ok .none) :=
  exec_construct_fits (pay := some p.pay) h ..

/-- Settles O37. -/
theorem constructLoadsItsOperands : Obligations.ConstructLoadsItsOperands := by
  intro seq ack flags window dlen pay csum s
  refine ⟨rfl, fun hover => (execConstruct_next ..).mpr (.inr ⟨hover, rfl⟩), fun hfits => ?_⟩
  refine ⟨_, exec_construct_fits hfits .., ?_⟩
  rw [constructChecksum_eq]
  exact ⟨rfl, rfl, rfl, rfl, rfl, rfl, fun hzero => if_pos hzero, fun hgiven => if_neg hgiven, rfl, rfl, rfl⟩

/-! ### DECODE -/

/-- A 16-bit field has the value of its two bytes, the high one first (spec/00_scope.md R7). -/
theorem toNat_fromBe16 (b0 b1 : Byte) : (fromBe16 b0 b1).toNat = b0.toNat * 256 + b1.toNat := by
  rw [fromBe16, BitVec.toNat_ofNat, Nat.mod_eq_of_lt (by omega)]

/-- A DECODE of an image of 10 to 1018 bytes is performed, with or without a packet in the slot. -/
theorem exec_decodeWire_fits {raw : List Byte} (hmin : 10 ≤ raw.length) (hmax : raw.length ≤ 1018) (s : State) :
    exec (.decodeWire raw) s =
      .next ((s.load (parseWire raw)).answer .ok (.label (classify (raw.getD 4 0) (raw.length - 10)))) := by
  rw [exec_decodeWire, execDecode_fits hmin hmax, parseWire_plen]
  rfl

/-- Settles O39. -/
theorem decodeLoadsTheImage : Obligations.DecodeLoadsTheImage := fun _ s =>
  ⟨rfl, fun hshort => (execDecode_next ..).mpr (.inl ⟨hshort, rfl⟩),
    fun hlong => (execDecode_next ..).mpr (.inr (.inl ⟨hlong, rfl⟩)),
    fun hmin hmax =>
      ⟨_, exec_decodeWire_fits hmin hmax s, toNat_fromBe16 .., toNat_fromBe16 .., rfl, rfl, toNat_fromBe16 ..,
        toNat_fromBe16 .., rfl, List.length_drop, rfl, rfl, rfl⟩⟩

/-- Settles O40: CLASSIFY labels the packet DECODE has loaded, and its answer is the one already there. -/
theorem decodeAnswersWhatClassifyAnswersNext : Obligations.DecodeAnswersWhatClassifyAnswersNext := by
  intro raw s t l h hok
  obtain ⟨_, rfl, _⟩ := exec_ok h hok
  exact exec_readOnly_valid rfl rfl

/-- The payload of an image within its bound fits the buffer, so CONSTRUCT takes what DECODE takes. -/
theorem parseWire_memory_wf {raw : List Byte} (h : raw.length ≤ 1018) : Memory.wf (parseWire raw).pay := by
  rw [Memory.wf, parseWire_pay, List.length_drop, params_payloadMax]
  omega

/-- Settles O43: DECODE loads the parsed packet as it is, CONSTRUCT by way of its checksum rule. -/
theorem loadersDifferOnlyOnAZeroChecksum : Obligations.LoadersDifferOnlyOnAZeroChecksum := by
  intro raw s hmin hmax p
  refine ⟨_, _, exec_decodeWire_fits hmin hmax s, exec_construct_packet (parseWire_memory_wf hmax) s, rfl, ?_,
    fun hgiven => ?_, fun hzero => ⟨hzero, ?_⟩⟩
  · exact (constructChecksum_with_csum p 0).symm
  · exact (constructChecksum_of_ne_zero hgiven).symm
  · exact (congrArg Packet.csum (constructChecksum_of_zero hzero)).trans (updateChecksum_csum p)

/-! ### ENCODE -/

/-- An image of a payload within its bound has a length DECODE takes (spec/10_state.md R23). -/
theorem wireImage_length_bounds {p : Packet} (h : Memory.wf p.pay) :
    10 ≤ (wireImage p).length ∧ (wireImage p).length ≤ 1018 := by
  have hpay : p.plen ≤ 1008 := h
  rw [wireImage_length]
  omega

/-- Settles O38. -/
theorem encodeReturnsTheImage : Obligations.EncodeReturnsTheImage := fun s =>
  ⟨rfl, exec_invalid rfl,
    fun hvalid => ⟨exec_readOnly_valid rfl hvalid, wireImage_length s.pkt, wireImage_length_bounds⟩⟩

/-! ### Through the wire -/

/-- Two operations, one after the other. -/
theorem execAll_pair {i j : Instr} {s t u : State} (hi : exec i s = .next t) (hj : exec j t = .next u) :
    execAll [i, j] s = .next u :=
  (execAll_cons_of_exec hi [j]).trans (execAll_cons_of_exec hj [])

/-- Settles O41: either way the slot holds the packet the image was of, or was parsed to. -/
theorem roundTripThroughTheWire : Obligations.RoundTripThroughTheWire := by
  refine ⟨fun s hvalid hwf => ?_, fun raw s hmin hmax => ?_⟩
  · obtain ⟨hmin, hmax⟩ := wireImage_length_bounds hwf
    exact ⟨_, _, _, _, exec_readOnly_valid rfl hvalid, rfl, exec_decodeWire_fits hmin hmax _,
      parseWire_wireImage s.pkt, rfl, rfl⟩
  · refine ⟨_, execAll_pair (exec_decodeWire_fits hmin hmax s) (exec_readOnly_valid rfl rfl), ?_⟩
    rw [State.answer_resp, resultAfter, State.answer_pkt, State.load_pkt, parseAndSerialiseAreInverse.2 raw hmin]

/-- A receiver that decodes an image and verifies it is answered with the validity of the parsed packet. -/
theorem execAll_decode_verify {raw : List Byte} (hmin : 10 ≤ raw.length) (hmax : raw.length ≤ 1018) (s : State) :
    execAll [.decodeWire raw, .csumVerify] s =
      .next ((s.load (parseWire raw)).answer .ok (.bit (checksumValid (parseWire raw)))) :=
  execAll_pair (exec_decodeWire_fits hmin hmax s) (exec_readOnly_valid rfl rfl)

/-- A CONSTRUCT that omits the checksum stores the computed one, and ENCODE answers with the image of that packet. -/
theorem execAll_construct_encode {pay : Option (List Byte)} (h : (pay.getD []).length ≤ 1008) (seq ack : Half)
    (flags window : Option Byte) (dlen : Option Half) (s : State) :
    execAll [.construct seq ack flags window dlen pay none, .encodeWire] s =
      let p := updateChecksum (constructOperands seq ack flags window dlen pay none)
      .next ((s.load p).answer .ok (.bytes (wireImage p))) :=
  execAll_pair (exec_construct_fits h ..) (exec_readOnly_valid rfl rfl)

/-- Settles O42: the packet that is sent has a valid checksum, which the image alone carries and any flip breaks. -/
theorem constructedPacketVerifiesEndToEnd : Obligations.ConstructedPacketVerifiesEndToEnd := by
  intro seq ack flags window dlen pay s hfits
  have hvalid := checksumValid_updateChecksum (constructOperands seq ack flags window dlen pay none)
  obtain ⟨hmin, hmax⟩ :=
    wireImage_length_bounds (p := updateChecksum (constructOperands seq ack flags window dlen pay none)) hfits
  refine ⟨_, _, execAll_construct_encode hfits seq ack flags window dlen s, rfl, ?_, fun i k hi => ?_⟩
  · refine ⟨_, execAll_decode_verify hmin hmax _, ?_⟩
    rw [State.answer_resp, parseWire_wireImage, hvalid]
  · rw [← flipBit_length _ i k] at hmin hmax
    refine ⟨_, execAll_decode_verify hmin hmax _, ?_⟩
    rw [State.answer_resp, anyBitFlipFailsVerification _ i k hvalid hi]

end Sys2Proof.Machine

/-!
PROOFS, family 42_checksum_ops. What the operations that update the checksum leave in the slot is an updated packet, and
an updated packet is valid. The update does not read CSUM, so updating again, or storing its value, changes nothing.
-/
namespace Sys2Proof.Machine

/-- With a packet an operation that rewrites it in place, other than by a payload operand, is performed. -/
theorem exec_mutation_valid {i : Instr} (hload : loads i = false) (hread : readOnly i = false)
    (hpay : payloadOperand i = none) {s : State} (hvalid : s.valid = true) :
    exec i s = .next ((s.store (packetAfter i s.pkt)).answer .ok .none) :=
  (exec_of_mutation hload hread hpay s).trans (mutate_valid hvalid _)

/-! ### Send-ready -/

/-- The "yes" rows of spec/42_checksum_ops.md R94: the last thing done to the packet is the update. -/
theorem packetAfter_of_endsWithUpdate {i : Instr} (h : endsWithUpdate i = true) (p : Packet) :
    ∃ q, packetAfter i p = updateChecksum q := by
  cases i with
  | csumUpdate | flagsSet | seqAdv | ackAdv => exact ⟨_, rfl⟩
  | setSeq | setAck | setFlags | setWin | setPay => exact ⟨refreshLength _, rfl⟩
  | _ => cases h

/-- The row of CONSTRUCT in R94: without a checksum of its own it ends with the update too. -/
theorem packetAfter_construct_of_zero {csum : Option Half} (h : csum.getD 0 = 0) (seq ack : Half)
    (flags window : Option Byte) (dlen : Option Half) (pay : Option (List Byte)) (p : Packet) :
    packetAfter (.construct seq ack flags window dlen pay csum) p =
      updateChecksum (constructOperands seq ack flags window dlen pay csum) :=
  constructChecksum_of_zero h

/-- An operation that answers OK and whose packet was updated last leaves the slot send-ready
(spec/70_reset_and_hazards.md R166). -/
theorem exec_ok_sendReady {i : Instr} {s t : State} {res : Result} {q : Packet} (h : exec i s = .next t)
    (hok : t.resp = some ⟨.ok, res⟩) (hupdated : packetAfter i s.pkt = updateChecksum q) : t.sendReady = true := by
  obtain ⟨_, rfl, _⟩ := exec_ok h hok
  rw [hupdated]
  exact sendReady_of_updateChecksum s q .ok _

/-- Settles O25. -/
theorem updatesLeaveThePacketSendReady : Obligations.UpdatesLeaveThePacketSendReady := by
  refine ⟨fun i s t res hends h hok => ?_, fun seq ack flags window dlen pay csum s t res hzero h hok => ?_⟩
  · obtain ⟨q, hupdated⟩ := packetAfter_of_endsWithUpdate hends s.pkt
    exact exec_ok_sendReady h hok hupdated
  · exact exec_ok_sendReady h hok (packetAfter_construct_of_zero hzero ..)

/-! ### The three checksum operations -/

/-- Settles O44. -/
theorem checksumOperations : Obligations.ChecksumOperations := by
  refine fun s => ⟨rfl, rfl, rfl, fun hinvalid i hmem => ?_, fun hvalid => ?_⟩
  · have hload : loads i = false := by
      revert i
      decide
    exact exec_invalid hload hinvalid
  · exact ⟨exec_readOnly_valid rfl hvalid, exec_mutation_valid rfl rfl rfl hvalid, exec_readOnly_valid rfl hvalid⟩

/-- The update overwrites CSUM without reading it, for the field counts as zero in the computation (R72). -/
theorem updateChecksum_with_csum (p : Packet) (c : Half) : updateChecksum { p with csum := c } = updateChecksum p := by
  rw [updateChecksum, computeChecksum_with_csum, updateChecksum]

/-- R91: a second update finds what it would store. -/
theorem updateChecksum_idempotent (p : Packet) : updateChecksum (updateChecksum p) = updateChecksum p :=
  updateChecksum_with_csum p (computeChecksum p)

/-- A CSUM.UPDATE of a slot that holds an updated packet leaves the packet that is there. -/
theorem exec_csumUpdate_of_updated {s : State} {p : Packet} (hvalid : s.valid = true)
    (hupdated : s.pkt = updateChecksum p) : exec .csumUpdate s = .next (s.answer .ok .none) := by
  have hstore : s.store (updateChecksum s.pkt) = s := by
    rw [hupdated, updateChecksum_idempotent, ← hupdated, State.store]
  rw [exec_mutation_valid rfl rfl rfl hvalid, packetAfter, hstore]

/-- A CSUM.VERIFY of a slot that holds an updated packet answers 1. -/
theorem exec_csumVerify_of_updated {s : State} {p : Packet} (hvalid : s.valid = true)
    (hupdated : s.pkt = updateChecksum p) : exec .csumVerify s = .next (s.answer .ok (.bit true)) := by
  rw [exec_readOnly_valid rfl hvalid, resultAfter, hupdated, checksumValid_updateChecksum]

/-- A CSUM.VERIFY answers whether the computed checksum and the stored one agree (R93). -/
theorem exec_csumVerify_eq_decide {s : State} (hvalid : s.valid = true) :
    exec .csumVerify s = .next (s.answer .ok (.bit (decide (computeChecksum s.pkt = s.pkt.csum)))) := by
  rw [exec_readOnly_valid rfl hvalid, resultAfter, checksumValid, decide_eq_decide.mpr eq_comm]

/-- Settles O45: after the update CSUM holds the value CSUM.COMPUTE answers with and CSUM.VERIFY compares with. -/
theorem checksumLaws : Obligations.ChecksumLaws := by
  intro s hvalid
  have hcompute : exec .csumCompute s = .next (s.answer .ok (.half (computeChecksum s.pkt))) :=
    exec_readOnly_valid rfl hvalid
  refine ⟨_, exec_mutation_valid rfl rfl rfl hvalid, exec_csumUpdate_of_updated hvalid rfl, ?_, ?_, ?_⟩
  · exact ⟨_, exec_csumVerify_of_updated hvalid rfl, rfl⟩
  · exact ⟨_, _, hcompute, rfl, exec_mutation_valid rfl rfl rfl hvalid⟩
  · exact ⟨_, _, _, _, hcompute, rfl, exec_readOnly_valid rfl hvalid, rfl, exec_csumVerify_eq_decide hvalid⟩

end Sys2Proof.Machine

/-!
PROOFS, family 43_flags. The byte FLAGS.SET leaves, bit by bit: from that it follows what a second one does to the first.
CLASSIFY: the exact matches are on five different bytes, and the payload is asked only when none of them is there.
-/
namespace Sys2Proof.Machine

/-! ### FLAGS.SET -/

/-- A bit of the byte FLAGS.SET leaves is the old one if it is in the mask, or else one of the three flags. -/
theorem getLsbD_setFlagBits_eq_or (x : Byte) (ack syn fin : Bool) (k : Nat) :
    (setFlagBits x ack syn fin).getLsbD k =
      (x.getLsbD k && flagReserved.getLsbD k || ack && flagAck.getLsbD k || syn && flagSyn.getLsbD k ||
        fin && flagFin.getLsbD k) := by
  simp [setFlagBits, apply_ite (BitVec.getLsbD · k), Bool.if_false_right]

/-- Each defined bit is outside the mask FLAGS.SET keeps, and in the one of its three flags that is named after it. -/
theorem setFlagBits_defined (x : Byte) (ack syn fin : Bool) :
    (setFlagBits x ack syn fin).getLsbD 4 = ack ∧ (setFlagBits x ack syn fin).getLsbD 1 = syn ∧
      (setFlagBits x ack syn fin).getLsbD 0 = fin := by
  simp only [getLsbD_setFlagBits_eq_or]
  simp [flagReserved, flagAck, flagSyn, flagFin]

/-- The whole byte FLAGS.SET leaves (spec/43_flags.md R95): a bit is one of the three defined ones, or reserved. -/
theorem getLsbD_setFlagBits (x : Byte) (ack syn fin : Bool) {k : Nat} (hk : k < 8) :
    (setFlagBits x ack syn fin).getLsbD k =
      if k = 4 then ack else if k = 1 then syn else if k = 0 then fin else x.getLsbD k := by
  obtain ⟨hack, hsyn, hfin⟩ := setFlagBits_defined x ack syn fin
  split
  case isTrue h4 => exact h4 ▸ hack
  split
  case isTrue h1 => exact h1 ▸ hsyn
  split
  case isTrue h0 => exact h0 ▸ hfin
  have hreserved : k ∈ [2, 3, 5, 6, 7] := by
    simp only [List.mem_cons, List.not_mem_nil, or_false]
    omega
  exact setFlagBits_reserved x ack syn fin hreserved

/-- Of the byte it finds FLAGS.SET takes only the reserved bits, which an earlier one has kept (R97). -/
theorem setFlagBits_setFlagBits (x : Byte) (ack syn fin ack' syn' fin' : Bool) :
    setFlagBits (setFlagBits x ack syn fin) ack' syn' fin' = setFlagBits x ack' syn' fin' := by
  refine BitVec.eq_of_getLsbD_eq fun k hk => ?_
  simp only [getLsbD_setFlagBits _ _ _ _ hk]
  split_ifs <;> rfl

/-- Setting the three bits to what they are changes nothing (R98). -/
theorem setFlagBits_self (x : Byte) : setFlagBits x (x.getLsbD 4) (x.getLsbD 1) (x.getLsbD 0) = x := by
  refine BitVec.eq_of_getLsbD_eq fun k hk => ?_
  rw [getLsbD_setFlagBits _ _ _ _ hk]
  split_ifs with h4 h1 h0
  · rw [h4]
  · rw [h1]
  · rw [h0]
  · rfl

/-- A second FLAGS.SET writes all that the first one did: the defined bits, and CSUM, which it does not read. -/
theorem packetAfter_flagsSet_flagsSet (ack syn fin ack' syn' fin' : Bool) (p : Packet) :
    packetAfter (.flagsSet ack' syn' fin') (packetAfter (.flagsSet ack syn fin) p) =
      packetAfter (.flagsSet ack' syn' fin') p := by
  simp only [packetAfter, updateChecksum_flags, setFlagBits_setFlagBits]
  exact updateChecksum_with_csum { p with flags := setFlagBits p.flags ack' syn' fin' } _

/-- Settles O46. -/
theorem flagsSetDeterminesTheDefinedBits : Obligations.FlagsSetDeterminesTheDefinedBits := fun ack syn fin s =>
  ⟨rfl, exec_invalid rfl, fun hvalid =>
    ⟨setFlagBits s.pkt.flags ack syn fin, fun _ => getLsbD_setFlagBits s.pkt.flags ack syn fin,
      exec_mutation_valid rfl rfl rfl hvalid⟩⟩

/-- Settles O47. -/
theorem lastFlagsSetWins : Obligations.LastFlagsSetWins := by
  refine ⟨fun ack syn fin ack' syn' fin' s hvalid => ?_, fun x ack syn fin => ?_⟩
  · have hfirst := exec_mutation_valid (i := .flagsSet ack syn fin) rfl rfl rfl hvalid
    rw [execAll_pair hfirst (exec_mutation_valid rfl rfl rfl hvalid), exec_mutation_valid rfl rfl rfl hvalid,
      State.answer_pkt, State.store_pkt, packetAfter_flagsSet_flagsSet]
    rfl
  · obtain ⟨hack, hsyn, hfin⟩ := setFlagBits_defined x ack syn fin
    exact ⟨hack, hsyn, hfin, setFlagBits_self x⟩

/-! ### CLASSIFY -/

/-- The five exact matches of spec/43_flags.md R99 do not ask for the payload. -/
theorem classify_match (plen : Nat) :
    classify 0x02 plen = .syn ∧ classify 0x10 plen = .ack ∧ classify 0x01 plen = .fin ∧
      classify 0x12 plen = .synAck ∧ classify 0x11 plen = .finAck :=
  ⟨rfl, rfl, rfl, rfl, rfl⟩

/-- Without a match the label depends on the payload length alone. -/
theorem classify_no_match {flags : Byte} (h : flags ∉ ([0x02, 0x10, 0x01, 0x12, 0x11] : List Byte)) (plen : Nat) :
    classify flags plen = if plen > 0 then .data else .unclassified := by
  simp only [List.mem_cons, List.not_mem_nil, or_false, not_or] at h
  obtain ⟨hsyn, hack, hfin, hsynAck, hfinAck⟩ := h
  have hsynOr : flagSyn ||| flagAck = 0x12 := rfl
  have hfinOr : flagFin ||| flagAck = 0x11 := rfl
  rw [classify, hsynOr, hfinOr, flagSyn, flagAck, flagFin, if_neg hsyn, if_neg hack, if_neg hfin, if_neg hsynAck,
    if_neg hfinAck]

/-- Settles O48. -/
theorem classifyIsExactMatch : Obligations.ClassifyIsExactMatch := by
  refine fun s => ⟨rfl, exec_invalid rfl, fun hvalid => ⟨_, exec_readOnly_valid rfl hvalid, ?_⟩⟩
  obtain ⟨hsyn, hack, hfin, hsynAck, hfinAck⟩ := classify_match s.pkt.plen
  refine ⟨(· ▸ hsyn), (· ▸ hack), (· ▸ hfin), (· ▸ hsynAck), (· ▸ hfinAck), fun h => ⟨fun hpay => ?_, fun hpay => ?_⟩⟩
  · rw [classify_no_match h, Packet.plen, if_pos (List.length_pos_iff.mpr hpay)]
  · rw [classify_no_match h, Packet.plen, hpay]
    rfl

end Sys2Proof.Machine

/-!
PROOFS, family 44_seqarith. The advance is determined by the sum of naturals modulo 65535; each of its laws is a fact
about that sum. The two operations are mutations in place that store the advanced number and then the checksum over it.
-/
namespace Sys2Proof.Machine

/-! ### The advance -/

/-- The remainder fits in 16 bits, so storing it loses nothing (spec/44_seqarith.md R105). -/
theorem toNat_advance (cur : Half) (amount : Nat) : (advance cur amount).toNat = (cur.toNat + amount) % 65535 := by
  have hfits : (cur.toNat + amount) % 65535 < 2 ^ 16 := (Nat.mod_lt _ (by decide)).trans (by decide)
  rw [advance, params_seqModulus, BitVec.toNat_ofNat, Nat.mod_eq_of_lt hfits]

theorem advance_lt (cur : Half) (amount : Nat) : (advance cur amount).toNat < 65535 := by
  rw [toNat_advance]
  exact Nat.mod_lt _ (by decide)

/-- The advance reads its operands only through the residue of their sum. -/
theorem advance_congr {cur cur' : Half} {a a' : Nat} (h : cur.toNat + a ≡ cur'.toNat + a' [MOD 65535]) :
    advance cur a = advance cur' a' := by
  rw [← BitVec.toNat_inj, toNat_advance, toNat_advance]
  exact h

/-- Every value but 65535 is its own residue. -/
theorem advance_zero {cur : Half} (h : cur ≠ 0xFFFF) : advance cur 0 = cur := by
  have hlt : cur.toNat < 65535 := by bv_omega
  rw [← BitVec.toNat_inj, toNat_advance, Nat.add_zero, Nat.mod_eq_of_lt hlt]

/-- A full turn of the modulus advances as nothing does. -/
theorem advance_modulus (cur : Half) : advance cur 65535 = advance cur 0 :=
  advance_congr (Nat.add_mod_right ..)

/-- 65535, which a direct write or an image can store, has the residue of 0 (spec/90_conflicts.md C2). -/
theorem advance_ffff (a : Nat) : advance 0xFFFF a = advance 0 a :=
  advance_congr (Nat.ModEq.add_right a (by decide))

theorem advance_advance (cur : Half) (a b : Nat) : advance (advance cur a) b = advance cur (a + b) := by
  refine advance_congr ?_
  rw [toNat_advance, ← Nat.add_assoc]
  exact Nat.mod_add_mod ..

/-- Where the sum passes 65534 once, taking 65535 off it is dropping the carry out of 16 bits and adding one. -/
theorem advance_of_wrap {cur : Half} {a : Nat} (hmin : 65535 ≤ cur.toNat + a) (hmax : cur.toNat + a < 131070) :
    advance cur a = cur + BitVec.ofNat 16 a + 1 := by
  rw [← BitVec.toNat_inj, toNat_advance]
  simp only [BitVec.toNat_add, BitVec.toNat_ofNat, BitVec.reduceToNat]
  omega

/-- Settles O51. -/
theorem advanceLaws : Obligations.AdvanceLaws := fun cur a b =>
  have hzero : advance 0 0 = 0 := advance_zero (by decide)
  ⟨advance_lt cur a,
    fun hcur => ⟨advance_zero hcur, (advance_modulus cur).trans (advance_zero hcur)⟩,
    (advance_ffff 0).trans hzero,
    (advance_modulus 0xFFFF).trans ((advance_ffff 0).trans hzero),
    advance_ffff a,
    advance_advance cur a b,
    advance_of_wrap (by decide) (by decide),
    fun _ => advance_of_wrap⟩

/-! ### The operations -/

/-- Settles O49. -/
theorem seqAdvAddsModulo65535 : Obligations.SeqAdvAddsModulo65535 := fun amount s =>
  ⟨rfl, exec_invalid rfl, fun hvalid =>
    ⟨advance s.pkt.seq amount.toNat, toNat_advance s.pkt.seq amount.toNat, exec_mutation_valid rfl rfl rfl hvalid⟩⟩

/-- Settles O50: FLAGS is neither read nor written. -/
theorem ackAdvAddsModulo65535 : Obligations.AckAdvAddsModulo65535 := fun amount s =>
  ⟨rfl, exec_invalid rfl, fun hvalid =>
    ⟨advance s.pkt.ack amount.toNat, toNat_advance s.pkt.ack amount.toNat, exec_mutation_valid rfl rfl rfl hvalid⟩⟩

end Sys2Proof.Machine

/-!
PROOFS, family 45_field_access. A read answers with one element of the packet and a direct write writes one. A SET is
treated once for all five fields: the write of its field, then the ending of R125. That ending overwrites DLEN and CSUM
and reads neither, so an ending between two writes leaves no trace; and writes of different fields commute.
-/
namespace Sys2Proof.Machine

/-! ### Operations without a packet -/

/-- Operations of which none is a loader all answer NO_PACKET while VALID is 0 (spec/60_exceptions.md R146). -/
theorem exec_invalid_of_mem {is : List Instr} (hload : is.any loads = false) {s : State} (hinvalid : s.valid = false) :
    ∀ i ∈ is, exec i s = .next (s.answer .noPacket .none) := fun i hmem =>
  exec_invalid (Bool.eq_false_of_not_eq_true (List.any_eq_false.mp hload i hmem)) hinvalid

/-! ### The reads -/

/-- RD.PAY answers with the bytes from index 0 up to PLEN, which are the whole payload (R117). -/
theorem resultAfter_rdPay (p : Packet) : resultAfter .rdPay p = .bytes p.pay :=
  congrArg Result.bytes (memRead_all p.pay)

/-- Settles O52. -/
theorem readsReturnTheirElement : Obligations.ReadsReturnTheirElement := by
  refine fun s => ⟨rfl, rfl, rfl, rfl, rfl, rfl, rfl, exec_invalid_of_mem rfl, fun hvalid => ?_⟩
  have hread {i : Instr} (h : readOnly i = true) := exec_readOnly_valid h hvalid
  exact ⟨hread rfl, hread rfl, hread rfl, hread rfl, hread rfl, hread rfl, resultAfter_rdPay s.pkt ▸ hread rfl⟩

/-! ### The direct writes and PAY.CLEAR -/

/-- Settles O53: a direct write is a mutation in place without an ending. -/
theorem directWritesWriteOneElement : Obligations.DirectWritesWriteOneElement := by
  refine fun v b s => ⟨rfl, rfl, rfl, rfl, rfl, rfl, exec_invalid_of_mem rfl, fun hvalid => ?_⟩
  have hwrite {i : Instr} (hload : loads i = false) (hread : readOnly i = false) (hpay : payloadOperand i = none) :=
    exec_mutation_valid hload hread hpay hvalid
  exact ⟨hwrite rfl rfl rfl, hwrite rfl rfl rfl, hwrite rfl rfl rfl, hwrite rfl rfl rfl, hwrite rfl rfl rfl,
    hwrite rfl rfl rfl⟩

/-- An operation whose payload operand fits is performed, with a packet in the slot. -/
theorem exec_payload_fits {i : Instr} {pay : List Byte} (hpay : payloadOperand i = some pay) {s : State}
    (hvalid : s.valid = true) (hfits : pay.length ≤ 1008) :
    exec i s = .next ((s.store (packetAfter i s.pkt)).answer .ok .none) :=
  (exec_of_payloadOperand hpay s).trans (mutatePay_valid hvalid hfits _)

/-- An operation whose payload operand is too long answers OVERSIZE, with a packet in the slot
(spec/60_exceptions.md R145, R149). -/
theorem exec_payload_oversize {i : Instr} {pay : List Byte} (hpay : payloadOperand i = some pay) {s : State}
    (hvalid : s.valid = true) (hover : 1008 < pay.length) : exec i s = .next (s.answer .oversize .none) :=
  (exec_of_payloadOperand hpay s).trans (mutatePay_oversize hvalid hover _)

/-- Settles O54. -/
theorem writePayReplacesThePayload : Obligations.WritePayReplacesThePayload := fun _ _ =>
  ⟨rfl, exec_invalid rfl, exec_payload_oversize rfl, exec_payload_fits rfl⟩

/-- Settles O55: PAY.CLEAR and WR.PAY of the empty sequence are both performed and leave the same packet. -/
theorem payClearEmptiesThePayload : Obligations.PayClearEmptiesThePayload := by
  refine fun s => ⟨rfl, exec_invalid rfl, fun hvalid => ?_⟩
  have hclear := exec_mutation_valid (i := .payClear) rfl rfl rfl hvalid
  have hwrite := exec_payload_fits (i := .wrPay []) rfl hvalid (Nat.zero_le _)
  exact ⟨hclear, hclear.trans hwrite.symm⟩

/-! ### The sets -/

/-- With a packet a SET of a value that fits writes its field and ends as R125 says. -/
theorem exec_set {f : FieldSet} (hfits : f.fits = true) {s : State} (hvalid : s.valid = true) :
    exec f.instr s = .next ((s.store (setFinish (f.write s.pkt))).answer .ok .none) := by
  cases f with
  | pay pay => exact exec_payload_fits rfl hvalid (of_decide_eq_true hfits)
  | seq | ack | flags | win => exact exec_mutation_valid rfl rfl rfl hvalid

/-- Settles O56. -/
theorem setsWriteThenFinish : Obligations.SetsWriteThenFinish := by
  refine fun v b s => ⟨rfl, rfl, rfl, rfl, exec_invalid_of_mem rfl, fun hvalid => ?_⟩
  exact ⟨exec_set (f := .seq v) rfl hvalid, exec_set (f := .ack v) rfl hvalid, exec_set (f := .flags b) rfl hvalid,
    exec_set (f := .win b) rfl hvalid⟩

/-- After the ending of R125 the stored checksum is the one computed over the packet it is stored in. -/
theorem setFinish_csum_eq_computeChecksum (p : Packet) : (setFinish p).csum = computeChecksum (setFinish p) :=
  (setFinish_csum p).trans (computeChecksum_updateChecksum (refreshLength p)).symm

/-- Settles O57. -/
theorem setPayLeavesAConsistentPacket : Obligations.SetPayLeavesAConsistentPacket := by
  refine fun pay s => ⟨rfl, exec_invalid rfl, exec_payload_oversize rfl, fun hvalid hfits => ?_⟩
  have hset := exec_set (f := .pay pay) (decide_eq_true hfits) hvalid
  exact ⟨_, hset, rfl, toNat_ofNat_of_memory_wf hfits, setFinish_csum_eq_computeChecksum _,
    exec_ok_sendReady (q := refreshLength { s.pkt with pay := pay }) hset rfl rfl, rfl, rfl, rfl, rfl, rfl, rfl⟩

/-! ### A SET in three operations -/

/-- The direct write of a settable field: the WR that stands beside its SET (R118 to R121, R124). -/
def FieldSet.writeInstr : FieldSet → Instr
  | .seq v => .wrSeq v
  | .ack v => .wrAck v
  | .flags v => .wrFlags v
  | .win v => .wrWin v
  | .pay v => .wrPay v

/-- With a packet the direct write of a value that fits writes its field and nothing else. -/
theorem exec_writeInstr {f : FieldSet} (hfits : f.fits = true) {s : State} (hvalid : s.valid = true) :
    exec f.writeInstr s = .next ((s.store (f.write s.pkt)).answer .ok .none) := by
  cases f with
  | pay pay => exact exec_payload_fits rfl hvalid (of_decide_eq_true hfits)
  | seq | ack | flags | win => exact exec_mutation_valid rfl rfl rfl hvalid

/-- The ending of R125 in two operations: SYNC by direct writes, on the packet that is there. -/
theorem execAll_wrDlen_csumUpdate {s : State} (hvalid : s.valid = true) :
    execAll [.wrDlen (BitVec.ofNat 16 s.pkt.pay.length), .csumUpdate] s =
      .next ((s.store (setFinish s.pkt)).answer .ok .none) := by
  rw [State.store_eq_load hvalid]
  exact execAll_pseudoSyncDirect hvalid

/-- R133, for each of the five fields. -/
theorem exec_set_eq_execAll {f : FieldSet} (hfits : f.fits = true) {s : State} (hvalid : s.valid = true) :
    exec f.instr s =
      execAll [f.writeInstr, .wrDlen (BitVec.ofNat 16 (f.write s.pkt).pay.length), .csumUpdate] s := by
  rw [exec_set hfits hvalid, execAll_cons_of_exec (exec_writeInstr hfits hvalid)]
  exact (execAll_wrDlen_csumUpdate (s := (s.store (f.write s.pkt)).answer .ok .none) hvalid).symm

/-- Settles O58. -/
theorem setIsWritePlusTheEnding : Obligations.SetIsWritePlusTheEnding := fun v b pay _ hvalid hfits =>
  ⟨exec_set_eq_execAll (f := .seq v) rfl hvalid, exec_set_eq_execAll (f := .ack v) rfl hvalid,
    exec_set_eq_execAll (f := .flags b) rfl hvalid, exec_set_eq_execAll (f := .win b) rfl hvalid,
    exec_set_eq_execAll (f := .pay pay) (decide_eq_true hfits) hvalid⟩

/-! ### Batches of sets -/

/-- The ending of R125 overwrites DLEN and CSUM and reads neither. -/
theorem setFinish_with_dlen_csum (p : Packet) (d c : Half) : setFinish { p with dlen := d, csum := c } = setFinish p :=
  updateChecksum_with_csum (refreshLength p) c

/-- A field's write leaves the DLEN and CSUM that are there, for no SET is of these two. -/
theorem write_with_dlen_csum (f : FieldSet) (p : Packet) (d c : Half) :
    f.write { p with dlen := d, csum := c } = { f.write p with dlen := d, csum := c } := by
  cases f <;> rfl

/-- The writes of a batch, one after the other, without any ending (R132). -/
def writeAll (fs : List FieldSet) (p : Packet) : Packet := fs.foldl (fun p f => f.write p) p

theorem writeAll_cons (f : FieldSet) (fs : List FieldSet) (p : Packet) :
    writeAll (f :: fs) p = writeAll fs (f.write p) := rfl

theorem writeAll_with_dlen_csum (fs : List FieldSet) (p : Packet) (d c : Half) :
    writeAll fs { p with dlen := d, csum := c } = { writeAll fs p with dlen := d, csum := c } := by
  induction fs generalizing p with
  | nil => rfl
  | cons f fs ih => rw [writeAll_cons, write_with_dlen_csum, ih, writeAll_cons]

/-- What the ending before a batch of writes did is overwritten by the ending after it. -/
theorem setFinish_writeAll_setFinish (fs : List FieldSet) (p : Packet) :
    setFinish (writeAll fs (setFinish p)) = setFinish (writeAll fs p) := by
  rw [setFinish_frame p, writeAll_with_dlen_csum, setFinish_with_dlen_csum]

/-- A batch of sets, in the order given, leaves all the writes and then the ending once (R132). -/
theorem execAll_pseudoSetMany {fs : List FieldSet} (hne : fs ≠ []) (hfits : ∀ f ∈ fs, f.fits = true) {s : State}
    (hvalid : s.valid = true) :
    execAll (pseudoSetMany fs) s = .next ((s.store (setFinish (writeAll fs s.pkt))).answer .ok .none) := by
  induction fs generalizing s with
  | nil => exact absurd rfl hne
  | cons f fs ih =>
    obtain ⟨hf, hfs⟩ := List.forall_mem_cons.mp hfits
    have hfirst := execAll_cons_of_exec (exec_set hf hvalid)
    obtain rfl | hmore := eq_or_ne fs []
    · exact hfirst []
    · have hrest := ih hmore hfs (s := (s.store (setFinish (f.write s.pkt))).answer .ok .none) hvalid
      rw [State.answer_pkt, State.store_pkt, setFinish_writeAll_setFinish] at hrest
      exact (hfirst (pseudoSetMany fs)).trans hrest

/-- Writes of different fields commute. -/
theorem write_comm {f g : FieldSet} (h : f.field ≠ g.field) (p : Packet) :
    g.write (f.write p) = f.write (g.write p) := by
  cases f with
  | seq => cases g with | seq => exact absurd rfl h | _ => rfl
  | ack => cases g with | ack => exact absurd rfl h | _ => rfl
  | flags => cases g with | flags => exact absurd rfl h | _ => rfl
  | win => cases g with | win => exact absurd rfl h | _ => rfl
  | pay => cases g with | pay => exact absurd rfl h | _ => rfl

/-- Writes of distinct fields leave the same packet in any order. -/
theorem writeAll_perm {fs gs : List FieldSet} (hperm : fs.Perm gs) (hdistinct : (fs.map FieldSet.field).Nodup)
    (p : Packet) : writeAll fs p = writeAll gs p := by
  refine hperm.foldl_eq' (fun f hf g hg q => ?_) p
  by_cases hfield : f.field = g.field
  · rw [List.inj_on_of_nodup_map hdistinct hf hg hfield]
  · exact write_comm hfield q

/-- Settles O59: the batch runs in its order, and its writes commute. -/
theorem setBatchesAreOrderIndependent : Obligations.SetBatchesAreOrderIndependent := by
  intro fs gs s hperm hdistinct hfits hne hvalid
  have hgs : gs ≠ [] := fun hnil => hne (hnil ▸ hperm).eq_nil
  rw [execAll_pseudoSetMany hgs (fun f hf => hfits f (hperm.mem_iff.mpr hf)) hvalid,
    ← writeAll_perm hperm hdistinct]
  rfl

end Sys2Proof.Machine

/-!
PROOFS, family 60_exceptions. The codes without an operation are those without a row in the table of R55; each error
status of the normal form has one cause; and an error is an answer, which no later operation reads.
-/
namespace Sys2Proof.Machine

/-! ### Unassigned codes -/

theorem opRow_eq_none_iff (op : Byte) : opRow op = none ↔ op ∉ opTable.map OpRow.code := by
  simp [opRow, List.find?_eq_none]

/-- The decoder knows exactly the codes of the table (spec/30_encoding.md R55, R56). -/
theorem decode_eq_badOp_iff (r : Request) : decode r = .badOp ↔ opRow r.op = none := by
  constructor
  · intro h
    rw [opRow_eq_none_iff]
    unfold decode at h
    split at h
    -- The last arm, where the code is none of the thirty before.
    case h_31 => simp_all [opTable]
    all_goals cases h
  · intro hrow
    cases hdecode : decode r with
    | badOp => rfl
    | instr i =>
      obtain ⟨_, hsome, _⟩ := decodedOperationsFitThePorts r i hdecode
      simp [hrow] at hsome

/-- A step on an unassigned code answers BAD_OP and takes the request off the queue (spec/60_exceptions.md R147). -/
theorem step_unassigned {s : State} {r : Request} {rest : List HostEvent} (hpending : s.pending = .present r :: rest)
    (hrow : opRow r.op = none) : step s = .next (State.answer { s with pending := rest } .badOp .none) := by
  rw [step_present hpending, execRequest, (decode_eq_badOp_iff r).mpr hrow, raise]

/-- Settles O4: the codes listed are those of the table. -/
theorem unassignedCodesAnswerBadOp : Obligations.UnassignedCodesAnswerBadOp := by
  refine ⟨fun s r rest hpending hop => ?_, fun r hop hbad => ?_, by decide +kernel⟩
  · exact step_unassigned hpending ((opRow_eq_none_iff r.op).mpr hop)
  · exact (opRow_eq_none_iff r.op).mp ((decode_eq_badOp_iff r).mp hbad) hop

/-! ### The causes of the error statuses -/

theorem payloadError_eq_some_iff (pay : List Byte) (st : Status) :
    payloadError pay = some st ↔ st = .oversize ∧ 1008 < pay.length := by
  unfold payloadError
  split <;> simp_all [eq_comm]

theorem imageError_eq_some_iff (raw : List Byte) (st : Status) :
    imageError raw = some st ↔
      (st = .truncatedHeader ∧ raw.length < 10) ∨ (st = .oversize ∧ 1018 < raw.length) := by
  unfold imageError
  split
  case isTrue hshort =>
    have hfits : ¬ 1018 < raw.length := by omega
    simp [hshort, hfits, eq_comm]
  case isFalse hlong => split <;> simp_all [eq_comm]

theorem operandError_eq_truncatedHeader_iff (i : Instr) :
    operandError i = some .truncatedHeader ↔ ∃ raw, i = .decodeWire raw ∧ raw.length < 10 := by
  cases i with
  | construct | wrPay | setPay => simp [operandError, payloadError_eq_some_iff]
  | decodeWire raw => simp [operandError, imageError_eq_some_iff]
  | _ => simp [operandError]

/-- A payload or image over its bound is the operand of one of four operations; two of them are loaders. -/
theorem operandError_eq_oversize_iff (i : Instr) :
    operandError i = some .oversize ↔
      (∃ seq ack flags window dlen pay csum, i = .construct seq ack flags window dlen (some pay) csum ∧
        1008 < pay.length) ∨
      (∃ raw, i = .decodeWire raw ∧ 1018 < raw.length) ∨
      (∃ pay, (i = .wrPay pay ∨ i = .setPay pay) ∧ 1008 < pay.length) := by
  cases i with
  | construct _ _ _ _ _ pay _ => cases pay <;> simp [operandError, payloadError_eq_some_iff]
  | decodeWire raw => simp [operandError, imageError_eq_some_iff]
  | wrPay pay | setPay pay => simp [operandError, payloadError_eq_some_iff]
  | _ => simp [operandError]

/-- Operands cause no status but the two of R144 and R145. -/
theorem operandError_eq_some {i : Instr} {st : Status} (h : operandError i = some st) :
    st = .truncatedHeader ∨ st = .oversize := by
  cases i with
  | construct | wrPay | setPay => exact .inr ((payloadError_eq_some_iff _ st).mp h).1
  | decodeWire raw => exact ((imageError_eq_some_iff raw st).mp h).imp And.left And.left
  | _ => cases h

/-- An operation that needs a packet and finds none answers NO_PACKET; any other, what its operands cause (R149). -/
theorem errorStatus_eq_some_iff (i : Instr) (v : Bool) (st : Status) :
    errorStatus i v = some st ↔
      (st = .noPacket ∧ v = false ∧ loads i = false) ∨ ((v = true ∨ loads i = true) ∧ operandError i = some st) := by
  cases hv : v <;> cases hl : loads i <;> simp [errorStatus, hl, eq_comm]

/-- Only DECODE finds a header truncated, and it needs no packet (R144). -/
theorem errorStatus_eq_truncatedHeader_iff (i : Instr) (v : Bool) :
    errorStatus i v = some .truncatedHeader ↔ ∃ raw, i = .decodeWire raw ∧ raw.length < 10 := by
  rw [errorStatus_eq_some_iff, operandError_eq_truncatedHeader_iff]
  constructor
  · rintro (⟨hst, _⟩ | ⟨_, hcause⟩)
    · cases hst
    · exact hcause
  · rintro ⟨raw, rfl, hlen⟩
    exact .inr ⟨.inr rfl, raw, rfl, hlen⟩

/-- OVERSIZE needs a packet in the slot at the two operations that are no loaders (R145, R149). -/
theorem errorStatus_eq_oversize_iff (i : Instr) (v : Bool) :
    errorStatus i v = some .oversize ↔
      (∃ seq ack flags window dlen pay csum, i = .construct seq ack flags window dlen (some pay) csum ∧
        1008 < pay.length) ∨
      (∃ raw, i = .decodeWire raw ∧ 1018 < raw.length) ∨
      (v = true ∧ ∃ pay, (i = .wrPay pay ∨ i = .setPay pay) ∧ 1008 < pay.length) := by
  rw [errorStatus_eq_some_iff, operandError_eq_oversize_iff]
  constructor
  · rintro (⟨hst, _⟩ | ⟨hready, hconstruct | hdecode | ⟨pay, hi, hlen⟩⟩)
    · cases hst
    · exact .inl hconstruct
    · exact .inr (.inl hdecode)
    · have hload : loads i = false := by obtain rfl | rfl := hi <;> rfl
      have hv : v = true := hready.resolve_right (by simp [hload])
      exact .inr (.inr ⟨hv, pay, hi, hlen⟩)
  · rintro (⟨_, _, _, _, _, _, _, rfl, hlen⟩ | ⟨raw, rfl, hlen⟩ | ⟨hv, hpay⟩)
    · exact .inr ⟨.inr rfl, .inl ⟨_, _, _, _, _, _, _, rfl, hlen⟩⟩
    · exact .inr ⟨.inr rfl, .inr (.inl ⟨raw, rfl, hlen⟩)⟩
    · exact .inr ⟨.inl hv, .inr (.inr hpay)⟩

theorem errorStatus_eq_noPacket_iff (i : Instr) (v : Bool) :
    errorStatus i v = some .noPacket ↔ v = false ∧ loads i = false := by
  have hoperand : operandError i ≠ some .noPacket := fun h => by simpa using operandError_eq_some h
  simp [errorStatus_eq_some_iff, hoperand]

theorem errorStatus_ne_badOp (i : Instr) (v : Bool) : errorStatus i v ≠ some .badOp := by
  have hoperand : operandError i ≠ some .badOp := fun h => by simpa using operandError_eq_some h
  simp [errorStatus_eq_some_iff, hoperand]

/-- The response of an operation: its error status alone, or OK with its result. -/
theorem exec_resp {i : Instr} {s t : State} {r : Response} (h : exec i s = .next t) (hr : t.resp = some r) :
    (∃ st, errorStatus i s.valid = some st ∧ r = ⟨st, .none⟩) ∨
    (errorStatus i s.valid = none ∧ r = ⟨.ok, resultAfter i s.pkt⟩) := by
  obtain ⟨st, herr, rfl⟩ | ⟨hnone, rfl⟩ := (exec_next i s t).mp h
  · exact .inl ⟨st, herr, (Option.some.inj hr).symm⟩
  · exact .inr ⟨hnone, (Option.some.inj hr).symm⟩

/-- An operation answers a status other than OK exactly where that is its error status. -/
theorem exec_status_iff {i : Instr} {s t : State} {r : Response} (h : exec i s = .next t) (hr : t.resp = some r)
    {st : Status} (hst : st ≠ .ok) : r.status = st ↔ errorStatus i s.valid = some st := by
  obtain ⟨st', herr, rfl⟩ | ⟨hnone, rfl⟩ := exec_resp h hr
  · simp [herr]
  · simp [hnone, hst.symm]

theorem exec_status_ne_badOp {i : Instr} {s t : State} {r : Response} (h : exec i s = .next t)
    (hr : t.resp = some r) : r.status ≠ .badOp := fun hbad =>
  errorStatus_ne_badOp i s.valid ((exec_status_iff h hr (by decide)).mp hbad)

/-- An error status comes alone (R141). -/
theorem exec_error_result {i : Instr} {s t : State} {r : Response} (h : exec i s = .next t) (hr : t.resp = some r)
    (hst : r.status ≠ .ok) : r.result = .none := by
  obtain ⟨_, _, rfl⟩ | ⟨_, rfl⟩ := exec_resp h hr
  · rfl
  · exact absurd rfl hst

/-- A step on a request answers BAD_OP exactly for an unassigned code (R147). -/
theorem step_status_eq_badOp_iff {s t : State} {q : Request} {rest : List HostEvent} {r : Response}
    (hpending : s.pending = .present q :: rest) (h : step s = .next t) (hr : t.resp = some r) :
    r.status = .badOp ↔ opRow q.op = none := by
  rw [← decode_eq_badOp_iff]
  rw [step_present hpending, execRequest_next] at h
  obtain ⟨i, hdecode, hexec⟩ | ⟨hdecode, rfl⟩ := h
  · simp [hdecode, exec_status_ne_badOp hexec hr]
  · obtain rfl := Option.some.inj hr
    simp [hdecode]

/-- Settles O17: a status other than OK is the operation's error status, which has one cause. -/
theorem statusesHaveTheirCauses : Obligations.StatusesHaveTheirCauses := by
  refine ⟨fun i s t r h hr => ⟨exec_error_result h hr, ?_, ?_, ?_, exec_status_ne_badOp h hr⟩,
    fun s t q rest r => step_status_eq_badOp_iff, rfl, rfl, rfl, rfl, rfl⟩
  · exact (exec_status_iff h hr (by decide)).trans (errorStatus_eq_truncatedHeader_iff i s.valid)
  · exact (exec_status_iff h hr (by decide)).trans (errorStatus_eq_oversize_iff i s.valid)
  · exact (exec_status_iff h hr (by decide)).trans (errorStatus_eq_noPacket_iff i s.valid)

/-! ### How an operation ends -/

/-- The two endings of R140, from `s` to `t` with response `r`: performed; or an error status alone, which leaves the
slot as it was. -/
def Answers (s t : State) (r : Response) : Prop :=
  r.status = .ok ∨
    (r.status ∈ [Status.truncatedHeader, .oversize, .noPacket, .badOp] ∧ r.result = .none ∧ t.pkt = s.pkt ∧
      t.valid = s.valid)

/-- Answering a status alone is one of the two endings, whichever status it is. -/
theorem answers_answer (s : State) (st : Status) : Answers s (s.answer st .none) ⟨st, .none⟩ := by
  cases st with
  | ok => exact .inl rfl
  | _ => exact .inr ⟨by decide, rfl, rfl, rfl⟩

theorem exec_answers (i : Instr) (s : State) :
    ∃ t r, exec i s = .next t ∧ t.resp = some r ∧ t.pending = s.pending ∧ Answers s t r := by
  obtain ⟨t, h⟩ := exec_total i s
  refine ⟨t, ?_⟩
  obtain ⟨st, _, rfl⟩ | ⟨_, rfl⟩ := (exec_next i s t).mp h
  · exact ⟨_, h, rfl, rfl, answers_answer s st⟩
  · exact ⟨_, h, rfl, rfl, .inl rfl⟩

theorem step_answers {s : State} {q : Request} {rest : List HostEvent} (hpending : s.pending = .present q :: rest) :
    ∃ t r, step s = .next t ∧ t.resp = some r ∧ t.pending = rest ∧ Answers s t r := by
  cases hdecode : decode q with
  | instr i =>
    rw [step_present hpending, execRequest_instr hdecode]
    exact exec_answers i { s with pending := rest }
  | badOp =>
    exact ⟨_, _, step_unassigned hpending ((decode_eq_badOp_iff q).mp hdecode), rfl, rfl,
      answers_answer { s with pending := rest } .badOp⟩

/-- No state stops the machine. -/
theorem step_total (s : State) : ∃ t, step s = .next t := by
  cases hpending : s.pending with
  | nil => exact ⟨_, step_idle hpending⟩
  | cons e rest =>
    cases e with
    | reset => exact ⟨_, step_reset hpending⟩
    | present q =>
      obtain ⟨t, _, h, _⟩ := step_answers hpending
      exact ⟨t, h⟩

/-- Settles O15. -/
theorem everyOperationAnswers : Obligations.EveryOperationAnswers :=
  ⟨exec_answers, fun _ _ _ => step_answers, step_total⟩

/-! ### An error leaves no trace -/

/-- No operation reads the response before it, and each overwrites it. -/
theorem exec_answer (j : Instr) (s : State) (st : Status) (r : Result) : exec j (s.answer st r) = exec j s := by
  rw [exec_eq, exec_eq j s]
  rfl

/-- Settles O16: an error is an answer and nothing else. -/
theorem errorsChangeNothing : Obligations.ErrorsChangeNothing := by
  intro i s t r h hr hst
  refine ⟨exec_error_result h hr hst, ?_⟩
  obtain ⟨st, _, rfl⟩ | ⟨_, rfl⟩ := (exec_next i s t).mp h
  · exact ⟨rfl, rfl, rfl, fun j => exec_answer j s st .none⟩
  · obtain rfl := Option.some.inj hr
    exact absurd rfl hst

/-- The loaders are CONSTRUCT and DECODE (spec/10_state.md R24). -/
theorem loads_eq_false {i : Instr}
    (hconstruct : ∀ seq ack flags window dlen pay csum, i ≠ .construct seq ack flags window dlen pay csum)
    (hdecode : ∀ raw, i ≠ .decodeWire raw) : loads i = false := by
  cases i with
  | construct => exact absurd rfl (hconstruct _ _ _ _ _ _ _)
  | decodeWire raw => exact absurd rfl (hdecode raw)
  | _ => rfl

/-- Settles O11. -/
theorem withoutAPacketNothingHappens : Obligations.WithoutAPacketNothingHappens :=
  fun _ _ hvalid hconstruct hdecode => exec_invalid (loads_eq_false hconstruct hdecode) hvalid

end Sys2Proof.Machine

/-!
PROOFS, family 70_reset_and_hazards. The reset input gives the reset state. A loader checks its operands and nothing of
the slot, and all it leaves there and answers comes from them.
-/
namespace Sys2Proof.Machine

/-- Settles O8. -/
theorem resetInputGivesTheResetState : Obligations.ResetInputGivesTheResetState :=
  fun _ rest hpending => ⟨resetInput rest, step_reset hpending, rfl, rfl⟩

/-- Whether a loader is performed does not depend on VALID (spec/60_exceptions.md R146). -/
theorem errorStatus_of_loads {i : Instr} (h : loads i = true) (v w : Bool) : errorStatus i v = errorStatus i w := by
  simp [errorStatus, h]

/-- Settles O12: the error status, the packet left and the result of a loader are the same for every slot it finds. -/
theorem loadersForgetThePreviousPacket : Obligations.LoadersForgetThePreviousPacket := by
  intro i s t res p v hload h hok
  obtain ⟨hnone, rfl, _⟩ := exec_ok h hok
  have hperformed : errorStatus i v = none := (errorStatus_of_loads hload v s.valid).trans hnone
  refine (exec_next i _ _).mpr (.inr ⟨hperformed, ?_⟩)
  rw [packetAfter_of_loads hload s.pkt p, resultAfter_of_loads hload s.pkt p]
  rfl

end Sys2Proof.Machine
